-- ==== Sys2Proof/Word.lean ====
section
/-! DEFINITION. The word types of the device (00 R5) and their plainest arithmetic. -/

namespace Sys2Proof

/-- 8 bits (00 Table 0-2). -/
abbrev Byte := BitVec 8
/-- 32 bits (00 Table 0-2). -/
abbrev Word := BitVec 32
/-- 64 bits (00 Table 0-2). -/
abbrev DWord := BitVec 64
/-- One bit for each lane of a slot: bit l is lane l (10 R314). -/
abbrev Lanes := BitVec 128

/-- A vector or other 7-bit register field (04 R110). -/
abbrev VReg := BitVec 7
/-- A scalar register number, s0 to s63 (04 R110). -/
abbrev SReg := BitVec 6

/-- The signed value of the low n bits of x. -/
def sextNat (n x : Nat) : Int :=
  let y := x % 2 ^ n
  if y < 2 ^ (n - 1) then (y : Int) else (y : Int) - 2 ^ n

/-- An integer taken modulo 2^n. -/
def wrapInt (n : Nat) (x : Int) : Nat := (x % 2 ^ n).toNat

/-- Bits hi..lo of a number, as a number. -/
def bitsOf (x lo len : Nat) : Nat := x / 2 ^ lo % 2 ^ len

/-- Field of len bits at bit lo of a number (04 R96, R103, R105, R108). -/
def fld (x lo len : Nat) : BitVec len := BitVec.ofNat len (x / 2 ^ lo)

/-- One bit of a number. -/
def bitAt (x i : Nat) : Bool := x / 2 ^ i % 2 == 1

/-- Packs fields, the first at bit 0, each with its width in bits. -/
def packFields : List (Nat × Nat) → Nat
  | [] => 0
  | (v, w) :: r => v % 2 ^ w + 2 ^ w * packFields r

/-- The number that little-endian bytes hold (00 R5). -/
def leNat : List Byte → Nat
  | [] => 0
  | b :: r => b.toNat + 256 * leNat r

/-- The n little-endian bytes of a number (00 R5). -/
def leBytes : Nat → Nat → List Byte
  | 0, _ => []
  | n + 1, x => BitVec.ofNat 8 x :: leBytes n (x / 256)

/-- The lanes of a mask below n, in ascending order (00 R7). -/
def lanesBelow (n : Nat) (m : Lanes) : List Nat := (List.range n).filter (fun l => m.getLsbD l)

/-- The active lanes of a mask in ascending lane id (00 R7). -/
def lanesOf (m : Lanes) : List Nat := lanesBelow 128 m

/-- The mask with one lane set. -/
def laneBit (l : Nat) : Lanes := BitVec.ofNat 128 (2 ^ l)

/-- The mask of lanes 0 to n-1. -/
def lanesFull (n : Nat) : Lanes := BitVec.ofNat 128 (2 ^ n - 1)

/-- The mask of a list of lanes. -/
def lanesMask (ls : List Nat) : Lanes := ls.foldl (fun m l => m ||| laneBit l) 0

end Sys2Proof
end

