-- ==== Sys2Proof/Machine/Float.lean ====
section
/-! DEFINITION. Number formats, exact values and rounding (chapter 05): decoding (R127 to R129), the five rounding
modes (R134, R135), overflow (R136), conversions (R137, R138), granules (R139, R140), elementary functions correctly
rounded (06 R178, R179; log 11), and the flags each result sets (R143). -/

namespace Sys2Proof.Machine

/-- Flags of AFLAGS as a number (05 Table 5-8). -/
def flNV : Nat := 1
def flDZ : Nat := 2
def flOF : Nat := 4
def flUF : Nat := 8
def flNX : Nat := 16
def flNS : Nat := 32

/-- The union of two flag sets. -/
def flOr (a b : Nat) : Nat := a ||| b

/-- A format: widths of exponent and mantissa, bias, whether it has infinities and ordinary NaNs, and its largest
finite value maxM × 2^maxE (05 Table 5-1). -/
structure Fmt where
  eb   : Nat
  mb   : Nat
  bias : Nat
  ieee : Bool
  nan  : Option Nat
  maxM : Nat
  maxE : Int
  deriving DecidableEq, Repr

/-- A format with infinities: all ones in the exponent are infinities and NaNs. -/
def Fmt.ofIeee (eb mb : Nat) (nan : Nat) : Fmt :=
  { eb := eb, mb := mb, bias := 2 ^ (eb - 1) - 1, ieee := true, nan := some nan, maxM := 2 ^ (mb + 1) - 1,
    maxE := (2 ^ (eb - 1) - 1 : Int) - mb }

/-- The format of a type code of Table 4-10 from 8 to 14 (05 R128, Table 5-2). -/
def fmtOf (code : Nat) : Fmt :=
  match code with
  | 8 => Fmt.ofIeee 5 10 0x7E00
  | 9 => Fmt.ofIeee 8 7 0x7FC0
  | 10 => Fmt.ofIeee 8 23 0x7FC00000
  | 11 => Fmt.ofIeee 11 52 0x7FF8000000000000
  | 12 => { eb := 4, mb := 3, bias := 7, ieee := false, nan := some 0x7F, maxM := 14, maxE := 5 }
  | 13 => Fmt.ofIeee 5 2 0x7E
  | _ => { eb := 2, mb := 1, bias := 1, ieee := false, nan := none, maxM := 3, maxE := 1 }

/-- Bits of a format. -/
def Fmt.bits (f : Fmt) : Nat := f.eb + f.mb + 1

/-- A value: NaN, infinity, or (−1)^neg × m × 2^e. -/
inductive FVal where
  | nan (sig : Bool)
  | inf (neg : Bool)
  | fin (neg : Bool) (m : Nat) (e : Int)
  deriving DecidableEq, Repr

/-- The value of an encoding (05 R127 to R129). -/
def fdecode (f : Fmt) (x : Nat) : FVal :=
  let neg := bitAt x (f.eb + f.mb)
  let e := bitsOf x f.mb f.eb
  let m := bitsOf x 0 f.mb
  if f.ieee && e == 2 ^ f.eb - 1 then
    if m == 0 then .inf neg else .nan (m < 2 ^ (f.mb - 1))
  else if f.nan.isSome && !f.ieee && e == 2 ^ f.eb - 1 && m == 2 ^ f.mb - 1 then .nan false
  else if e == 0 then .fin neg m (1 - (f.bias : Int) - f.mb)
  else .fin neg (m + 2 ^ f.mb) ((e : Int) - f.bias - f.mb)

/-- A rounding mode (05 R134, R135): .rs carries the dither of its element. -/
inductive RMode where
  | rn | rz | rp | rm
  | rs (dither : Nat)
  deriving DecidableEq, Repr

/-- The mode of a rounding code 0 to 3 (04 Table 4-11). -/
def rmodeOf (code : Nat) : RMode :=
  match code with
  | 0 => .rn
  | 1 => .rz
  | 2 => .rp
  | _ => .rm

/-- The hash of R135. -/
def srDither (seed e : Nat) : Nat :=
  let h := (seed + e * 0x9E3779B9) % 2 ^ 32
  let h := h ^^^ (h / 2 ^ 16)
  let h := (h * 0x85EBCA6B) % 2 ^ 32
  let h := h ^^^ (h / 2 ^ 13)
  let h := (h * 0xC2B2AE35) % 2 ^ 32
  let h := h ^^^ (h / 2 ^ 16)
  h / 2 ^ 8

/-- The mode of a rounding code 0 to 4 for element index e (05 R135). -/
def rmodeAt (code seed e : Nat) : RMode := if code == 4 then .rs (srDither seed e) else rmodeOf code

/-- Rounds m × 2^e (with sticky: a value strictly between m and m + 1 times 2^e) to a multiple n × 2^q by R134 and
R135. Answers n and whether it is inexact. -/
def roundAt (mode : RMode) (neg : Bool) (m : Nat) (e : Int) (sticky : Bool) (q : Int) : Nat × Bool :=
  let k := (q - e).toNat
  let n := if q ≤ e then m * 2 ^ (e - q).toNat else m / 2 ^ k
  let rem := if q ≤ e then 0 else m % 2 ^ k
  let inexact := rem != 0 || sticky
  let twice := 2 * rem
  let up : Bool := inexact && (match mode with
    | .rn => q > e && (twice > 2 ^ k || (twice == 2 ^ k && (sticky || n % 2 == 1)))
    | .rz => false
    | .rp => !neg
    | .rm => neg
    | .rs d =>
      if neg then !(d < (2 ^ k - rem) * 2 ^ 24 / 2 ^ k) else d < rem * 2 ^ 24 / 2 ^ k)
  (if up then n + 1 else n, inexact)

/-- Compares m1 × 2^e1 with m2 × 2^e2. -/
def cmpMag (m1 : Nat) (e1 : Int) (m2 : Nat) (e2 : Int) : Ordering :=
  let e := min e1 e2
  compare (m1 * 2 ^ (e1 - e).toNat) (m2 * 2 ^ (e2 - e).toNat)

/-- The encoding of n × 2^q in a format, for n at most 2^(mb+1) and q the quantum of its binade. -/
def fencode (f : Fmt) (neg : Bool) (n : Nat) (q : Int) : Nat :=
  let s := if neg then 2 ^ (f.eb + f.mb) else 0
  let (n, q) := if n ≥ 2 ^ (f.mb + 1) then (n / 2, q + 1) else (n, q)
  if n < 2 ^ f.mb then s + n
  else s + (q + f.mb + f.bias).toNat * 2 ^ f.mb + (n - 2 ^ f.mb)

/-- The encoding of an infinity, or of the largest finite value in a format that has none. -/
def finf (f : Fmt) (neg : Bool) : Nat :=
  if f.ieee then (if neg then 2 ^ (f.eb + f.mb) else 0) + (2 ^ f.eb - 1) * 2 ^ f.mb
  else fencode f neg f.maxM f.maxE

/-- The largest finite value. -/
def fmax (f : Fmt) (neg : Bool) : Nat := fencode f neg f.maxM f.maxE

/-- The canonical NaN (05 Table 5-2); E2M1 has none and takes +0 (Table 5-6). -/
def fnan (f : Fmt) : Nat := f.nan.getD 0

/-- Overflow results (05 Table 5-5). -/
def foverflow (f : Fmt) (mode : RMode) (neg : Bool) : Nat :=
  if !f.ieee then fmax f neg
  else match mode with
    | .rn => finf f neg
    | .rz => fmax f neg
    | .rp => if neg then fmax f neg else finf f neg
    | .rm => if neg then finf f neg else fmax f neg
    | .rs _ => fmax f neg

/-- Rounds a finite exact value to a format (05 R134 to R136): the encoding and the flags (R143). -/
def fround (f : Fmt) (mode : RMode) (neg : Bool) (m : Nat) (e : Int) (sticky : Bool := false) : Nat × Nat :=
  if m == 0 && !sticky then (fencode f neg 0 0, 0)
  else
    let top : Int := Nat.log2 m + e
    let emin : Int := 1 - (f.bias : Int)
    let qu := top - f.mb
    let q := (if top < emin then emin else top) - f.mb
    let u := roundAt mode neg m e sticky qu
    let o := if f.ieee then u else roundAt .rn neg m e sticky qu
    if cmpMag o.1 qu f.maxM f.maxE == .gt then (foverflow f mode neg, flOr flOF flNX)
    else
      let r := roundAt mode neg m e sticky q
      if cmpMag r.1 q f.maxM f.maxE == .gt then (fmax f neg, flNX)
      else
        let tiny := cmpMag u.1 qu 1 emin == .lt
        (fencode f neg r.1 q, if r.2 then flOr flNX (if tiny then flUF else 0) else 0)

/-- Exact sum of two signed magnitudes: sign, magnitude, exponent. A zero sum takes a sign later. -/
def fsum (n1 : Bool) (m1 : Nat) (e1 : Int) (n2 : Bool) (m2 : Nat) (e2 : Int) : Bool × Nat × Int :=
  let e := min e1 e2
  let a := m1 * 2 ^ (e1 - e).toNat
  let b := m2 * 2 ^ (e2 - e).toNat
  if n1 == n2 then (n1, a + b, e)
  else if a ≥ b then (n1, a - b, e) else (n2, b - a, e)

/-- The result of an exact sum: an exact zero of operands of opposite sign is +0, or −0 under .rm (05 R134). -/
def fsumRound (f : Fmt) (mode : RMode) (n1 : Bool) (m1 : Nat) (e1 : Int) (n2 : Bool) (m2 : Nat) (e2 : Int) : Nat × Nat :=
  let s := fsum n1 m1 e1 n2 m2 e2
  if s.2.1 == 0 then (fencode f (if n1 == n2 then n1 else mode == .rm) 0 0, 0)
  else fround f mode s.1 s.2.1 s.2.2

/-- NV when some operand is a signalling NaN. -/
def sigFlag (l : List FVal) : Nat := if l.any (fun v => v == .nan true) then flNV else 0

/-- Whether some operand is a NaN. -/
def anyNan (l : List FVal) : Bool := l.any (fun v => match v with | .nan _ => true | _ => false)

/-- a + b in a format (06 Table 6-5). -/
def faddV (f : Fmt) (mode : RMode) (a b : FVal) : Nat × Nat :=
  match a, b with
  | .inf n1, .inf n2 => if n1 == n2 then (finf f n1, 0) else (fnan f, flNV)
  | .inf n, .fin _ _ _ => (finf f n, 0)
  | .fin _ _ _, .inf n => (finf f n, 0)
  | .fin n1 m1 e1, .fin n2 m2 e2 => fsumRound f mode n1 m1 e1 n2 m2 e2
  | _, _ => (fnan f, sigFlag [a, b])

/-- −a. -/
def fnegV : FVal → FVal
  | .nan s => .nan s
  | .inf n => .inf (!n)
  | .fin n m e => .fin (!n) m e

/-- a × b as an exact value; none is 0 × infinity or a NaN. -/
def fmulV (a b : FVal) : Option FVal :=
  match a, b with
  | .inf n1, .inf n2 => some (.inf (n1 != n2))
  | .inf n1, .fin n2 m _ => if m == 0 then none else some (.inf (n1 != n2))
  | .fin n1 m _, .inf n2 => if m == 0 then none else some (.inf (n1 != n2))
  | .fin n1 m1 e1, .fin n2 m2 e2 => some (.fin (n1 != n2) (m1 * m2) (e1 + e2))
  | _, _ => none

/-- An exact value rounded to a format. -/
def froundV (f : Fmt) (mode : RMode) : FVal → Nat × Nat
  | .nan s => (fnan f, if s then flNV else 0)
  | .inf n => (finf f n, 0)
  | .fin n m e => fround f mode n m e

/-- a × b in a format (06 Table 6-5). -/
def fmulR (f : Fmt) (mode : RMode) (a b : FVal) : Nat × Nat :=
  if anyNan [a, b] then (fnan f, sigFlag [a, b])
  else match fmulV a b with
    | none => (fnan f, flNV)
    | some v => froundV f mode v

/-- a × b + c with one rounding (06 Table 6-5): 0 × infinity is invalid even when c is NaN. -/
def ffmaR (f : Fmt) (mode : RMode) (a b c : FVal) : Nat × Nat :=
  if anyNan [a, b] then (fnan f, sigFlag [a, b, c])
  else match fmulV a b with
    | none => (fnan f, flNV)
    | some p =>
      match p, c with
      | _, .nan s => (fnan f, if s then flNV else 0)
      | .inf n1, .inf n2 => if n1 == n2 then (finf f n1, 0) else (fnan f, flNV)
      | .inf n, _ => (finf f n, 0)
      | _, .inf n => (finf f n, 0)
      | .fin n1 m1 e1, .fin n2 m2 e2 => fsumRound f mode n1 m1 e1 n2 m2 e2
      | .nan _, _ => (fnan f, 0)

/-- Order of two non-NaN values with −0 below +0 (06 R180). -/
def flt (a b : FVal) : Bool :=
  match a, b with
  | .inf n1, .inf n2 => n1 && !n2
  | .inf n, _ => n
  | _, .inf n => !n
  | .fin n1 m1 e1, .fin n2 m2 e2 =>
    if n1 != n2 then n1
    else if n1 then cmpMag m1 e1 m2 e2 == .gt else cmpMag m1 e1 m2 e2 == .lt
  | _, _ => false

/-- Numerical comparison of two non-NaN values: less, equal (with +0 = −0), greater (06 R181). -/
def fcompare (a b : FVal) : Ordering :=
  match a, b with
  | .fin n1 m1 e1, .fin n2 m2 e2 =>
    if m1 == 0 && m2 == 0 then .eq
    else if n1 != n2 then (if n1 then .lt else .gt)
    else if n1 then cmpMag m2 e2 m1 e1 else cmpMag m1 e1 m2 e2
  | _, _ => if flt a b then .lt else if flt b a then .gt else .eq

/-- VFMIN and VFMAX on encodings (06 R180): the chosen encoding and the flags. -/
def fminmax (f : Fmt) (maxi : Bool) (x y : Nat) : Nat × Nat :=
  let a := fdecode f x
  let b := fdecode f y
  let fl := sigFlag [a, b]
  match a, b with
  | .nan _, .nan _ => (fnan f, fl)
  | .nan _, _ => (y, fl)
  | _, .nan _ => (x, fl)
  | _, _ => (if maxi then (if flt a b then y else x) else (if flt b a then y else x), fl)

/-- VFCMP by FN 0 to 7 (06 R181): the truth and the flags. -/
def fcmp (fn : Nat) (a b : FVal) : Bool × Nat :=
  let un := anyNan [a, b]
  let o := fcompare a b
  let r := match fn with
    | 0 => !un && o == .eq
    | 1 => un || o != .eq
    | 2 => !un && o == .lt
    | 3 => !un && o != .gt
    | 4 => !un && o == .gt
    | 5 => !un && o != .lt
    | 6 => un
    | _ => !un
  (r, sigFlag [a, b])

/-- VFCLS: the one-hot class mask (06 Table 6-7). -/
def fclass (f : Fmt) (x : Nat) : Nat :=
  match fdecode f x with
  | .nan true => 2 ^ 0
  | .nan false => 2 ^ 1
  | .inf true => 2 ^ 2
  | .inf false => 2 ^ 9
  | .fin n m e =>
    if m == 0 then (if n then 2 ^ 5 else 2 ^ 6)
    else if cmpMag m e 1 (1 - (f.bias : Int)) == .lt then (if n then 2 ^ 4 else 2 ^ 7)
    else (if n then 2 ^ 3 else 2 ^ 8)

/-- a × 2^(X − 127) (06 R177, VSCL): X = 0xFF gives the canonical NaN and sets NS. -/
def fscale (f : Fmt) (mode : RMode) (a : FVal) (x : Nat) : Nat × Nat :=
  if x == 255 then (fnan f, flOr flNS (sigFlag [a]))
  else match a with
    | .fin n m e => fround f mode n m (e + x - 127)
    | v => froundV f mode v

/-- VDOT: c + Σ a_i × b_i into FP32 with one rounding (06 R183). -/
def fdot (mode : RMode) (as bs : List FVal) (c : FVal) : Nat × Nat :=
  let f := fmtOf 10
  let ps := (as.zip bs).map fun p => fmulV p.1 p.2
  let nans := anyNan (c :: (as ++ bs))
  let bad := (as.zip bs).any fun p => !anyNan [p.1, p.2] && (fmulV p.1 p.2).isNone
  let terms := c :: ps.filterMap id
  let pinf := terms.any (· == .inf false)
  let ninf := terms.any (· == .inf true)
  let nv := if bad || (pinf && ninf) then flNV else 0
  if nans || bad || (pinf && ninf) then (fnan f, flOr nv (sigFlag (c :: (as ++ bs))))
  else if pinf then (finf f false, 0)
  else if ninf then (finf f true, 0)
  else
    let s := terms.foldl (fun (acc : Bool × Nat × Int) v => match v with
      | .fin n m e => if m == 0 then acc else fsum acc.1 acc.2.1 acc.2.2 n m e
      | _ => acc) (false, 0, 0)
    let allNeg := terms.all fun v => match v with | .fin n _ _ => n | _ => false
    let allPos := terms.all fun v => match v with | .fin n _ _ => !n | _ => false
    if s.2.1 == 0 then (fencode f (if allNeg then true else if allPos then false else mode == .rm) 0 0, 0)
    else fround f mode s.1 s.2.1 s.2.2

/-! ### Conversions -/

/-- Rounds a finite value to an integer of n bits (05 R138): saturation sets NV alone. -/
def fToInt (mode : RMode) (signed : Bool) (n : Nat) (v : FVal) : Nat × Nat :=
  let lo : Int := if signed then -(2 ^ (n - 1) : Int) else 0
  let hi : Int := if signed then 2 ^ (n - 1) - 1 else 2 ^ n - 1
  match v with
  | .nan _ => (0, flNV)
  | .inf neg => (wrapInt n (if neg then lo else hi), flNV)
  | .fin neg m e =>
    let r := roundAt mode neg m e false 0
    let x : Int := if neg then -(r.1 : Int) else r.1
    if x < lo then (wrapInt n lo, flNV)
    else if hi < x then (wrapInt n hi, flNV)
    else (wrapInt n x, if r.2 then flNX else 0)

/-- A value converted to a floating-point format (05 R136 to R138). -/
def fToFmt (f : Fmt) (mode : RMode) (sat : Bool) (v : FVal) : Nat × Nat :=
  match v with
  | .nan s => (fnan f, if s || f.nan.isNone then flNV else 0)
  | .inf n => if f.ieee then (if sat then fmax f n else finf f n, 0) else (fmax f n, flOr flOF flNX)
  | .fin n m e =>
    let r := fround f mode n m e
    (if sat && f.ieee && r.1 == finf f n then fmax f n else r.1, r.2)

/-- The exact value of an integer of n bits. -/
def intVal (signed : Bool) (n x : Nat) : FVal :=
  let i : Int := if signed then sextNat n x else ((x % 2 ^ n : Nat) : Int)
  .fin (i < 0) i.natAbs 0

/-- Width in bits of a type code of Table 4-10 from 0 to 14. -/
def typeBits (code : Nat) : Nat :=
  if code < 8 then 8 * 2 ^ (code % 4)
  else match code with
    | 8 => 16 | 9 => 16 | 10 => 32 | 11 => 64 | 12 => 8 | 13 => 8 | _ => 4

/-- The exact value of an encoding of a type code from 0 to 14. -/
def typeVal (code x : Nat) : FVal :=
  if code < 4 then intVal true (typeBits code) x
  else if code < 8 then intVal false (typeBits code) x
  else fdecode (fmtOf code) (x % 2 ^ typeBits code)

/-- VFCVT of one value (06 R184): the encoding in the destination type and the flags. -/
def fcvt (dst src : Nat) (mode : RMode) (sat : Bool) (x : Nat) : Nat × Nat :=
  let v := typeVal src x
  if dst < 8 then fToInt mode (dst < 4) (typeBits dst) v else fToFmt (fmtOf dst) mode sat v

/-! ### Granules (05 R132, R139, R140) -/

/-- Element format code of a scaled format 15, 16, 17; 18 is INT8. -/
def sxElem (code : Nat) : Nat :=
  match code with
  | 15 => 12 | 16 => 13 | 17 => 14 | _ => 0

/-- emax of a scaled format (05 Table 5-3). -/
def sxEmax (code : Nat) : Int :=
  match code with
  | 15 => 8 | 16 => 15 | 17 => 2 | _ => 0

/-- Bits of an element of a scaled format. -/
def sxBits (code : Nat) : Nat := if code == 17 then 4 else 8

/-- The pack of 24 FP32 encodings: scale, elements, flags (05 R139). -/
def packGranule (code rm : Nat) (sat : Bool) (seed g : Nat) (xs : List Nat) : Nat × List Nat × Nat :=
  let vs := xs.map (fdecode (fmtOf 10))
  let bad := vs.any fun v => match v with | .fin _ _ _ => false | _ => true
  if bad then (255, xs.map fun _ => 0, flNV)
  else
    let tops : List Int := vs.filterMap fun v => match v with
      | .fin _ m e => if m == 0 then none else some (Nat.log2 m + e)
      | _ => none
    let X : Int := match tops with
      | [] => 127
      | t :: r =>
        let y := (r.foldl max t) - sxEmax code + 127
        if y < 0 then 0 else if 254 < y then 254 else y
    let conv (j : Nat) (v : FVal) : Nat × Nat :=
      let mode := rmodeAt rm seed (24 * g + j)
      match v with
      | .fin n m e =>
        if code == 18 then
          let r := roundAt mode n m (e + 127 - X + 6) false 0
          let c := decide (127 < r.1)
          let k := if c then 127 else r.1
          (wrapInt 8 (if n then -(k : Int) else k), if c then flOr flOF flNX else if r.2 then flNX else 0)
        else fToFmt (fmtOf (sxElem code)) mode sat (.fin n m (e + 127 - X))
      | _ => (0, 0)
    let rs := (List.range vs.length).map fun j => conv j (vs.getD j (.fin false 0 0))
    (X.toNat, rs.map (·.1), rs.foldl (fun fl r => flOr fl r.2) 0)

/-- The value of an element of a scaled format before its scale (05 R132). -/
def sxVal (code x : Nat) : FVal :=
  if code == 18 then
    match intVal true 8 x with
    | .fin n m e => .fin n m (e - 6)
    | v => v
  else fdecode (fmtOf (sxElem code)) (x % 2 ^ sxBits code)

/-- The unpack of a granule of scale X into FP32 encodings, with its flags (05 R140). -/
def unpackGranule (code rm : Nat) (sat : Bool) (X : Nat) (es : List Nat) : List Nat × Nat :=
  if X == 255 then (es.map fun _ => fnan (fmtOf 10), flNS)
  else
    let rs := es.map fun x => match sxVal code x with
      | .fin n m e => fToFmt (fmtOf 10) (rmodeOf rm) sat (.fin n m (e + X - 127))
      | v => fToFmt (fmtOf 10) (rmodeOf rm) sat v
    (rs.map (·.1), rs.foldl (fun fl r => flOr fl r.2) 0)

/-! ### Elementary functions (06 R178, R179). Irrational results are computed to a fixed number of bits, with the
fact that they are not exact kept beside (log 11). -/

/-- floor(√n), by the bits below 2^k. -/
def isqrt : Nat → Nat → Nat → Nat
  | 0, _, r => r
  | k + 1, n, r => let t := r + 2 ^ k; if t * t ≤ n then isqrt k n t else isqrt k n r

/-- 1 ÷ (m × 2^e), rounded. -/
def frcp (f : Fmt) (mode : RMode) (neg : Bool) (m : Nat) (e : Int) : Nat × Nat :=
  let k := Nat.log2 m + 192
  fround f mode neg (2 ^ k / m) (-(k : Int) - e) (2 ^ k % m != 0)

/-- 1 ÷ √(m × 2^e), rounded. -/
def frsq (f : Fmt) (mode : RMode) (m : Nat) (e : Int) : Nat × Nat :=
  let (m, e) := if e % 2 == 0 then (m, e) else (2 * m, e - 1)
  let k := Nat.log2 m + 192
  let n := 2 ^ (2 * k) / m
  let r := isqrt (Nat.log2 n / 2 + 1) n 0
  fround f mode false r (-(k : Int) - e / 2) (r * r * m != 2 ^ (2 * k))

/-- ln 2 to 384 bits. -/
def ln2c : Nat := 0xb17217f7d1cf79abc9e3b39803f2f6af40f343267298b62d8a0d175b8baafa2be7b876206debac98559552fb4afa1b10

/-- π to 832 bits. -/
def pic : Nat := 0x3243f6a8885a308d313198a2e03707344a4093822299f31d0082efa98ec4e6c89452821e638d01377be5466cf34e90c6cc0ac29b7c97c50dd3f84d5b5b54709179216d5d98979fb1bd1310ba698dfb5ac2ffd72dbd01adfb7b8e1afed6a267e96ba7c9045f12c7f99

/-- Σ x^i ÷ i! in p-bit fixed point, from term t at index i. -/
def expSum : Nat → Nat → Nat → Nat → Nat → Nat
  | 0, _, _, _, _ => 0
  | n + 1, p, x, t, i => t + expSum n p x (t * x / 2 ^ p / (i + 1)) (i + 1)

/-- 2^(m × 2^e), rounded; integers are exact. -/
def fexp2 (f : Fmt) (mode : RMode) (neg : Bool) (m : Nat) (e : Int) : Nat × Nat :=
  let big := decide ((Nat.log2 m : Int) + e > 12)
  if m == 0 then fround f mode false 1 0
  else if big then fround f mode false 1 (if neg then -4096 else 4096)
  else if 0 ≤ e then
    let n : Int := m * 2 ^ e.toNat
    fround f mode false 1 (if neg then -n else n)
  else
    let k := (-e).toNat
    let i : Int := if neg then -((m : Int)) else m
    let n := i / 2 ^ k
    let r := (i % 2 ^ k).toNat
    if r == 0 then fround f mode false 1 n
    else
      let x := r * ln2c / 2 ^ k
      fround f mode false (expSum 120 384 x (2 ^ 384) 0) (n - 384) true

/-- The bits of log2 of x ÷ 2^p in [1, 2), one squaring a bit. -/
def log2Bits : Nat → Nat → Nat → Nat → Nat
  | 0, _, _, acc => acc
  | n + 1, p, x, acc =>
    let y := x * x / 2 ^ p
    if y ≥ 2 ^ (p + 1) then log2Bits n p (y / 2) (2 * acc + 1) else log2Bits n p y (2 * acc)

/-- log2 of m × 2^e for m > 0, rounded; powers of two are exact. -/
def flog2 (f : Fmt) (mode : RMode) (m : Nat) (e : Int) : Nat × Nat :=
  let t := Nat.log2 m
  let n : Int := t + e
  if m == 2 ^ t then fround f mode (n < 0) n.natAbs 0
  else
    let l := log2Bits 200 448 (m * 2 ^ 448 / 2 ^ t) 0
    let v : Int := n * 2 ^ 200 + l
    if v < 0 then fround f mode true (v.natAbs - 1) (-200) true else fround f mode false v.natAbs (-200) true

/-- The alternating series Σ (−1)^i x^(2i+s) ÷ (2i+s)!: the sums of the terms added and of those taken away. -/
def trigSum : Nat → Nat → Nat → Nat → Nat → Bool → Nat × Nat → Nat × Nat
  | 0, _, _, _, _, _, acc => acc
  | n + 1, p, x2, t, i, neg, acc =>
    trigSum n p x2 (t * x2 / 2 ^ p / ((i + 1) * (i + 2))) (i + 2) (!neg)
      (if neg then (acc.1, acc.2 + t) else (acc.1 + t, acc.2))

/-- sin(π r ÷ 2^k) and cos(π r ÷ 2^k) for 0 < r ÷ 2^k < 1/2, in 832-bit fixed point. -/
def trigCore (r k : Nat) : Nat × Nat :=
  let x := r * pic / 2 ^ k
  let x2 := x * x / 2 ^ 832
  let s := trigSum 90 832 x2 x 1 false (0, 0)
  let c := trigSum 90 832 x2 (2 ^ 832) 0 false (0, 0)
  (s.1 - s.2, c.1 - c.2)

/-- sin(π a) and cos(π a) of a = (−1)^neg × m × 2^e (06 R179). -/
def fsincos (f : Fmt) (mode : RMode) (neg : Bool) (m : Nat) (e : Int) : (Nat × Nat) × (Nat × Nat) :=
  let zero (n : Bool) : Nat × Nat := (fencode f n 0 0, 0)
  let one (n : Bool) : Nat × Nat := fround f mode n 1 0
  if m == 0 then (zero neg, one false)
  else
    let k := (-e).toNat
    let a := if 0 ≤ e then m * 2 ^ e.toNat else m
    let r2 := a % 2 ^ (k + 1)
    let oddHalf := decide (2 ^ k ≤ r2)
    let r := r2 % 2 ^ k
    if r == 0 then (zero neg, one oddHalf)
    else if 2 * r == 2 ^ k then (one (neg != oddHalf), zero false)
    else if 2 * r < 2 ^ k then
      let t := trigCore r k
      (fround f mode (neg != oddHalf) t.1 (-832) true, fround f mode oddHalf t.2 (-832) true)
    else
      let t := trigCore (2 ^ k - r) k
      (fround f mode (neg != oddHalf) t.1 (-832) true, fround f mode (!oddHalf) t.2 (-832) true)

/-- VRCP, VRSQ, VEXP2, VLOG2 (FN 0 to 3) with their special inputs (06 Table 6-6). -/
def funary (fn : Nat) (f : Fmt) (mode : RMode) (a : FVal) : Nat × Nat :=
  let nan := fnan f
  match a with
  | .nan s => (nan, if s then flNV else 0)
  | .inf neg =>
    match fn with
    | 0 => (fencode f neg 0 0, 0)
    | 1 => if neg then (nan, flNV) else (fencode f false 0 0, 0)
    | 2 => if neg then (fencode f false 0 0, 0) else (finf f false, 0)
    | _ => if neg then (nan, flNV) else (finf f false, 0)
  | .fin neg m e =>
    if m == 0 then
      match fn with
      | 0 => (finf f neg, flDZ)
      | 1 => (finf f neg, 0)
      | 2 => fround f mode false 1 0
      | _ => (finf f true, flDZ)
    else match fn with
      | 0 => frcp f mode neg m e
      | 1 => if neg then (nan, flNV) else frsq f mode m e
      | 2 => fexp2 f mode neg m e
      | _ => if neg then (nan, flNV) else flog2 f mode m e

/-- VSINCOS with its special inputs (06 R179). -/
def fsincosV (f : Fmt) (mode : RMode) (a : FVal) : (Nat × Nat) × (Nat × Nat) :=
  match a with
  | .nan s => ((fnan f, if s then flNV else 0), (fnan f, 0))
  | .inf _ => ((fnan f, flNV), (fnan f, 0))
  | .fin n m e => fsincos f mode n m e

/-- One element of a float atomic or CRED step, in mode .rn and with no flag (07 R201; 05 R143): add, min, max. -/
def fatom (fn code : Nat) (old x : Nat) : Nat :=
  let f := fmtOf code
  match fn with
  | 0 => (faddV f .rn (fdecode f old) (fdecode f x)).1
  | 1 => (fminmax f false old x).1
  | _ => (fminmax f true old x).1

end Sys2Proof.Machine
end

