-- ==== Sys2Proof/Machine/Flags.lean ====
section
/-! DEFINITION. Integer results and the flags they set (05 R126, R141, Table 5-7; 06 R160 to R162, R168), comparison
results, and what a write does to AFLAGS, AENAB, PEND and EMASK (02 Tables 2-8, 2-9; 05 Tables 5-8, 5-9). -/

namespace Sys2Proof.Machine

/-- Width of an integer type code 0 to 7 (04 Table 4-10). -/
def tyBits (ty : Nat) : Nat := 8 * 2 ^ (ty % 4)

/-- Signedness of an integer type code (04 Table 4-10). -/
def tySigned (ty : Nat) : Bool := decide (ty < 4)

/-- The value of the low n bits. -/
def ival (signed : Bool) (n x : Nat) : Int := if signed then sextNat n x else ((x % 2 ^ n : Nat) : Int)

/-- Least and greatest values of a width. -/
def intMin (signed : Bool) (n : Nat) : Int := if signed then -(2 ^ (n - 1) : Int) else 0
def intMax (signed : Bool) (n : Nat) : Int := if signed then 2 ^ (n - 1) - 1 else 2 ^ n - 1

/-- Reduction of an exact result to n bits (05 R141). It sets no flag. -/
def reduceInt (sat signed : Bool) (n : Nat) (x : Int) : Nat :=
  if sat then wrapInt n (max (intMin signed n) (min (intMax signed n) x)) else wrapInt n x

/-- Integer quotient or remainder and its flag (05 Table 5-7). -/
def divInt (rem signed : Bool) (n a b : Nat) : Nat × Nat :=
  let x := ival signed n a
  let y := ival signed n b
  if y == 0 then (if rem then a % 2 ^ n else 2 ^ n - 1, flDZ)
  else (wrapInt n (if rem then Int.tmod x y else Int.tdiv x y), 0)

/-- Bitwise logic on n bits (04 Table 4-13, SLOG and VLOG). -/
def logInt (f n a b : Nat) : Nat :=
  let x := BitVec.ofNat n a
  let y := BitVec.ofNat n b
  BitVec.toNat (match f with
    | 0 => x &&& y
    | 1 => x ||| y
    | 2 => x ^^^ y
    | 3 => x &&& ~~~y
    | 4 => x ||| ~~~y
    | 5 => ~~~(x ^^^ y)
    | _ => ~~~x)

/-- Shift or rotate of n bits by k below n (04 Table 4-13, SSHF and VSHF). -/
def shiftInt (f n a k : Nat) : Nat :=
  let x := BitVec.ofNat n a
  BitVec.toNat (match f with
    | 0 => x <<< k
    | 1 => x >>> k
    | 2 => BitVec.sshiftRight x k
    | 3 => x.rotateLeft k
    | _ => x.rotateRight k)

/-- Comparison by function code 0 to 5 (04 Table 4-13). -/
def cmpInt (f : Nat) (x y : Int) : Bool :=
  match f with
  | 0 => x == y
  | 1 => x != y
  | 2 => decide (x < y)
  | 3 => decide (x ≤ y)
  | 4 => decide (y < x)
  | _ => decide (y ≤ x)

/-- Minimum or maximum. -/
def minmaxInt (maxi : Bool) (x y : Int) : Int := if maxi then max x y else min x y

/-- Number of one bits among the low n. -/
def popCount (n x : Nat) : Nat := ((List.range n).filter fun i => bitAt x i).length

/-- Zeros from bit 0 up among the low n; n when there is no one. -/
def trailZeros (n x : Nat) : Nat := ((List.range n).takeWhile fun i => !bitAt x i).length

/-- Zeros from bit n-1 down; n when there is no one. -/
def leadZeros (n x : Nat) : Nat := ((List.range n).reverse.takeWhile fun i => !bitAt x i).length

/-- A result of a class 2 type as the register word or pair holds it (05 R126): .i8 and .i16 sign-extended, other
narrow types zero-extended. -/
def extendInt (ty x : Nat) : Nat :=
  if ty % 4 == 3 then x % 2 ^ 64
  else if tySigned ty then wrapInt 32 (sextNat (tyBits ty) x)
  else x % 2 ^ tyBits ty

/-- SMUL and VMUL: low or high half of the exact product (06 Tables 6-2, 6-3). -/
def mulInt (high sat signed : Bool) (n : Nat) (x y z : Int) : Nat :=
  let v := x * y + z
  if high then wrapInt n (v / 2 ^ n) else reduceInt sat signed n v

/-- CSRW of AFLAGS: W1C on bits 5:0 (05 Table 5-8). -/
def wr1c (old val : Word) (bits : Nat) : Word := old &&& ~~~(val &&& BitVec.ofNat 32 (2 ^ bits - 1))

/-- CSRW of AENAB: bits 5:0 (05 Table 5-9). -/
def wrAenab (val : Word) : Word := val &&& 0x3F

/-- EMASK by operation code 0 to 2 (06 R157). -/
def wrEmask (op : Nat) (old m : Word) : Word :=
  match op with
  | 0 => m
  | 1 => old ||| m
  | _ => old &&& ~~~m

/-- Whether a lane's flags enable the ARITH_STICKY trap (05 R145). -/
def stickySet (aflags aenab : Word) : Bool := (aflags &&& aenab) &&& 0x3F != 0

end Sys2Proof.Machine
end

