-- ==== Sys2Proof/Fields.lean ====
section
/-! DEFINITION. The shapes of operands and of the contents of messages that instructions and events carry. -/

namespace Sys2Proof

/-- Second operand of an FS word: a scalar register or IMM9 (04 R108). -/
inductive SOpnd where
  | reg (b : SReg)
  | imm (k : BitVec 9)
  deriving DecidableEq, Repr

/-- A class 2 or 3 source: a vector register with its reuse hint, or a scalar, broadcast (04 R103, R106, R109). -/
inductive VSrc where
  | vec (r : VReg) (reuse : Bool)
  | scl (r : SReg)
  deriving DecidableEq, Repr

/-- A vector or scalar third source C, which has no reuse hint (04 R105, R106). -/
inductive CSrc where
  | vec (r : VReg)
  | scl (r : SReg)
  deriving DecidableEq, Repr

/-- An optional scoreboard slot (04 R106: SBE and SB). -/
abbrev Slot := Option (BitVec 3)

/-- The memory operand of class 4 (07 R188): base, index, index scale, unsigned index, reuse hints. -/
structure MemOpnd where
  vb : Bool
  a  : VReg
  ra : Bool
  ix : Bool
  b  : VReg
  rb : Bool
  sc : BitVec 2
  iu : Bool
  deriving DecidableEq, Repr

/-- A unit that issues instructions: a quad of a core, or a mending core (01 R13; 02 R27). -/
inductive IssueUnit where
  | quad (core quad : Nat)
  | mend (core : Nat)
  deriving DecidableEq, Repr

/-- The payload fields of a lease message (11 R340 Table 11-11; 16 R402 for REPLICA). -/
structure LeaseMsg where
  tag     : BitVec 16
  lease   : BitVec 16
  flags   : Byte
  dur     : Word
  node    : BitVec 16
  extent  : Word
  gen     : Word
  deriving DecidableEq, Repr

/-- A record of the lease directory (11 R343). -/
structure DirRec where
  dstate : BitVec 3
  node   : BitVec 16
  extent : Word
  gen    : Word
  deriving DecidableEq, Repr

/-- A Kagon flit without its link check bytes (11 R331 Tables 11-5 and 11-6), with its link sequence number. swz is the swizzle mode that the home applies to
the words of a seam-window atomic (03 R90), for which the manual gives no field of the flit (log 82). -/
structure Flit where
  op     : Byte
  dest   : BitVec 14
  source : BitVec 14
  rv     : Bool
  carve  : Bool
  seam   : Bool
  size   : BitVec 2
  tag    : BitVec 12
  addr   : BitVec 45
  typ    : BitVec 5
  aop    : BitVec 3
  data   : List Byte
  mask   : BitVec 128
  seamid : Word
  seq    : BitVec 11 := 0
  swz    : BitVec 2 := 0
  deriving DecidableEq, Repr

/-- Where a flit was received: its Kagon port, and its link sequence number (11 R330). -/
structure Link where
  port : Nat
  seq  : BitVec 11
  deriving DecidableEq, Repr

/-- The device that sent a scheduler message, and the flit that brought it (11 R336); a message of a device to itself has none. -/
structure Sender where
  dev  : Nat
  link : Option Link := none
  deriving DecidableEq, Repr

/-- A firmware message as a slot of Table 11-14 holds it (11 R337), and the flit that brought it. -/
structure FwMsg where
  code   : Byte
  body   : List Byte
  peer   : BitVec 14
  core   : BitVec 2
  link   : Option Link := none
  deriving DecidableEq, Repr

/-- A request for measurements: an index, and the nonce of a signed one (11 R349, R350). -/
structure MeasReq where
  index : Nat
  nonce : Option (List Byte) := none
  deriving DecidableEq, Repr

/-- A host access through a host window (11 R324; host atomics 08 R256, R257). -/
inductive HostAcc where
  | read (n : Nat)
  | write (data : List Byte)
  | atomic (fn : BitVec 3) (ty : BitVec 4) (data swap : DWord)
  deriving DecidableEq, Repr

/-- What the host answers over the host port (11 R326, R327). -/
inductive HostResp where
  | readData (id : Nat) (data : List Byte)
  | atomicOld (id : Nat) (old : DWord)
  | flushed (warp : Nat)
  | drained
  | birsp (line : Nat) (data : Option (List Byte))
  deriving DecidableEq, Repr

/-- A verified object of a firmware image: its header's SM3 digest and version, and whether the SM2 signature over the header
verifies under the fused key (12 R356; log 10); then its bytes. -/
structure FwPart where
  sigOk   : Bool
  digest  : BitVec 256
  version : Nat
  code    : List Byte
  deriving DecidableEq, Repr

/-- What a firmware slot or FWIMAGE brings: the mending firmware with its entry offset, and the link firmware (12 R355, R356). -/
structure FwImg where
  mend  : FwPart
  entry : Word
  link  : FwPart
  deriving DecidableEq, Repr

/-- A chunk of FWIMAGE (12 Table 12-6): its offset, its bytes, and the image that the slot holds with them in place, if they
complete one (log 96). -/
structure FwChunk where
  off   : Nat
  data  : List Byte
  image : Option FwImg
  deriving DecidableEq, Repr

/-- The fields of a carrier's identity record (12 Table 12-7). -/
structure Card where
  format  : Byte
  ctype   : Byte
  holdup  : Bool
  slots   : Bool
  pmod    : Bool
  ckptGiB : Nat
  slotMiB : Nat
  deriving DecidableEq, Repr

/-- What the boot ROM meets in stages FUSE to MEM (12 R354, R355; 17 R434): the 64 bytes of the carrier's identity record, none
when it is absent; flash images; which stacks train; and the fuses: disabled clusters, stacks and planes, the rollback counter. -/
structure BootFacts where
  record   : List Byte
  slotA    : Option FwImg
  slotB    : Option FwImg
  received : Option FwImg
  trained  : BitVec 16
  noClusters : BitVec 64 := 0
  noStacks   : BitVec 16 := 0
  noPlanes   : BitVec 16 := 0
  rollback : Nat := 0
  deriving DecidableEq, Repr

/-- What training of links gives (12 R355 stage LINKS; 17 R434): Kagon ports up, pool ports with IDE, host port. -/
structure LinkFacts where
  kagon : BitVec 16
  pool  : BitVec 8
  deriving DecidableEq, Repr

/-- The sensor values of one 1 ms monitor sample (12 R360; 17 R430). -/
structure Sample where
  tdie     : List (BitVec 16)
  tcluster : List (BitVec 16)
  thbm     : List (BitVec 16)
  vcore    : List (BitVec 16)
  vok      : List Bool
  pmon     : List (BitVec 16)
  pmod     : BitVec 16
  deriving DecidableEq, Repr

/-- Where an uncorrectable error is found (16 R408, R409). -/
inductive ErrLoc where
  | l1 (core sector : Nat)
  | llc (slice sector : Nat) (dirty : Bool)
  | hbm (sector : Nat)
  | carve (sector : Nat)
  | coreWord (warp : Nat) (scratchOff : Option Nat)
  | async (op : Nat) (off : Option Nat)
  | matrix (cluster pipe : Nat)
  | mend (core : Nat)
  | seam (port : Nat) (f : Flit)
  deriving DecidableEq, Repr

end Sys2Proof
end

