-- ==== Sys2Proof/Syntax.lean ====
section
/-! DEFINITION. The steps of the device: one constructor for each row of spec/opcode_table.json. The VX instructions
carry their operand fields; the events carry what arrives from outside or what the manual leaves to timing (log 1). -/

namespace Sys2Proof

/-- An instruction of VX, or an event of the device (04 R114; 95). -/
inductive Instr where
  /-- R150. Unconditional branch of every active lane to the header at the clause header address plus four times OFF25. -/
  | bra (off : BitVec 25)
  /-- R150. Per-lane conditional branch on predicate P, negated by N. -/
  | brc (p : BitVec 3) (n : Bool) (off : BitVec 21)
  /-- R150. Branch of all active lanes when any or all of them hold predicate P. -/
  | brv (p : BitVec 3) (n all : Bool) (off : BitVec 20)
  /-- R150. Writes each lane's return address to LINK and branches to a 128-byte-aligned target clause. -/
  | call (link : VReg) (off : BitVec 18)
  /-- R151. Moves each active lane to the target clause held in its own v(A). -/
  | ret (a : VReg) (ra : Bool)
  /-- R151. Indirect jump of each active lane to the target clause in its own v(A). -/
  | jmpi (a : VReg) (ra : Bool)
  /-- R152. Retires the active lanes that hold the predicate, and retires the warp once no live lane remains. -/
  | exit (p : BitVec 3) (n : Bool)
  /-- R32. Parks the lane in the warp's open bounded reconvergence wait, opening one if none is open. -/
  | rcw (q : BitVec 2) (bound : BitVec 16)
  /-- R154. Arrives on a named barrier and parks the warp until the generation completes. -/
  | barg (b : BitVec 4)
  /-- R154. Arrives on a named barrier and lets the warp continue. -/
  | bara (b : BitVec 4)
  /-- R52. Evaluates the selected bindings and resumes at once on the lowest that holds, or parks the warp. -/
  | wany (m : BitVec 8)
  /-- R155. Writes an event binding from two scalars after checking kind, selector and handler. -/
  | ebind (d : BitVec 3) (a b : SReg)
  /-- R157. Writes, sets, clears or reads the warp's EMASK. -/
  | emask (op : BitVec 2) (m : BitVec 8) (d : SReg)
  /-- R158. Clears named PEND bits and optionally returns PEND as it stood at the start of the cycle. -/
  | eclr (rd : Bool) (d a : SReg)
  /-- R159. Makes the warp not Ready at the next window boundary so that another slot of the quad may be granted. -/
  | yield
  /-- R160. Scalar add, with 32- or 64-bit and saturating forms chosen by FN. -/
  | sadd (f : BitVec 3) (d a : SReg) (b : SOpnd)
  /-- R160. Scalar subtract, with the FN forms of SADD. -/
  | ssub (f : BitVec 3) (d a : SReg) (b : SOpnd)
  /-- R160. Scalar multiply, returning the low or the high half. -/
  | smul (f : BitVec 3) (d a : SReg) (b : SOpnd)
  /-- R161. Scalar multiply-add of 32 or 64 bits, returning the low or the high half. -/
  | smad (high : Bool) (ty : BitVec 4) (d a b c : SReg)
  /-- R160. Scalar quotient or remainder by Table 5-7, setting DZ on division by zero. -/
  | sdiv (f : BitVec 3) (d a : SReg) (b : SOpnd)
  /-- R160. Scalar bitwise logic. -/
  | slog (f : BitVec 3) (d a : SReg) (b : SOpnd)
  /-- R160. Scalar shift or rotate by b[4:0]. -/
  | sshf (f : BitVec 3) (d a : SReg) (b : SOpnd)
  /-- R160. Signed or unsigned scalar minimum. -/
  | smin (u : Bool) (d a : SReg) (b : SOpnd)
  /-- R160. Signed or unsigned scalar maximum. -/
  | smax (u : Bool) (d a : SReg) (b : SOpnd)
  /-- R162. Compares two scalars and writes the result to a q bit. -/
  | scmp (f : BitVec 3) (u : Bool) (q : BitVec 2) (a : SReg) (b : SOpnd)
  /-- R165. Uniform conditional, unconditional, linking or register branch of all active lanes. -/
  | sjmp (f : BitVec 3) (d a : SReg) (imm : Word)
  /-- R163. Moves a scalar or an immediate into a scalar register. -/
  | smov (d : SReg) (b : SOpnd)
  /-- R163. Selects between two scalar operands on a q bit. -/
  | ssel (q : BitVec 2) (d a : SReg) (b : SOpnd)
  /-- R164. Loads a 32-bit immediate into a scalar register. -/
  | simm (d : SReg) (imm : Word)
  /-- R166. One-lane scalar load of 32 or 64 bits with an immediate offset, on a scoreboard slot. -/
  | sld (d a : SReg) (w : Bool) (slot : BitVec 3) (k : BitVec 9)
  /-- R166. One-lane scalar store of 32 or 64 bits with an immediate offset. -/
  | sst (d a : SReg) (w : Bool) (k : BitVec 9)
  /-- R167. Reads a vector register of the lowest active lane into a scalar. -/
  | srdl (d : SReg) (a : VReg) (ra : Bool)
  /-- R160. Population count or leading or trailing zeros of a scalar. -/
  | scnt (f : BitVec 3) (d a : SReg)
  /-- R168. Vector integer add, F3 form as .i32 without saturation. -/
  | vadd (d : VReg) (a b : VSrc)
  /-- R168. Vector integer add, FX form with type and saturation. -/
  | vaddFx (d : VReg) (a b : VSrc) (ty : BitVec 4) (sat : Bool)
  /-- R168. Vector integer subtract, F3 form. -/
  | vsub (d : VReg) (a b : VSrc)
  /-- R168. Vector integer subtract, FX form. -/
  | vsubFx (d : VReg) (a b : VSrc) (ty : BitVec 4) (sat : Bool)
  /-- R168. Vector integer multiply, low half, F3 form. -/
  | vmul (d : VReg) (a b : VSrc)
  /-- R168. Vector integer multiply, low or high half, FX form. -/
  | vmulFx (high : Bool) (d : VReg) (a b : VSrc) (ty : BitVec 4) (sat : Bool)
  /-- R168. Vector integer multiply-add, low or high half. -/
  | vmad (high : Bool) (d : VReg) (a b : VSrc) (c : CSrc) (ty : BitVec 4) (sat : Bool)
  /-- R168. Vector integer quotient, F3 form, by Table 5-7. -/
  | vdiv (d : VReg) (a b : VSrc)
  /-- R168. Vector integer quotient or remainder, FX form. -/
  | vdivFx (rem : Bool) (d : VReg) (a b : VSrc) (ty : BitVec 4)
  /-- R168. Vector bitwise logic, F3 form. -/
  | vlog (d : VReg) (a b : VSrc)
  /-- R168. Vector bitwise logic, FX form. -/
  | vlogFx (f : BitVec 3) (d : VReg) (a b : VSrc) (ty : BitVec 4)
  /-- R168. Vector shift or rotate, F3 form. -/
  | vshf (d : VReg) (a b : VSrc)
  /-- R168. Vector shift or rotate, FX form. -/
  | vshfFx (f : BitVec 3) (d : VReg) (a b : VSrc) (ty : BitVec 4)
  /-- R168. Vector integer minimum. -/
  | vmin (d : VReg) (a b : VSrc) (ty : BitVec 4)
  /-- R168. Vector integer maximum. -/
  | vmax (d : VReg) (a b : VSrc) (ty : BitVec 4)
  /-- R169. Vector integer compare into a predicate. -/
  | vcmp (f : BitVec 3) (p : BitVec 3) (a b : VSrc) (ty : BitVec 4)
  /-- R170. Per-lane select on a predicate, with a zeroing form. -/
  | vsel (p : BitVec 3) (n z : Bool) (d : VReg) (a b : VSrc) (wide : Bool)
  /-- R171. Copies a vector register or broadcasts a scalar into the active lanes. -/
  | vmov (d : VReg) (a : VSrc)
  /-- R171. Writes a 32-bit immediate to every active lane. -/
  | vimm (d : VReg) (imm : Word)
  /-- R172. Per-lane population count or leading-zero count. -/
  | vcnt (lz : Bool) (d : VReg) (a : VSrc) (ty : BitVec 4)
  /-- R172. Per-lane bit-field extract. -/
  | vbfx (d : VReg) (a : VSrc) (ty : BitVec 4) (pos : BitVec 5) (len : BitVec 6)
  /-- R172. Per-lane bit-field insert. -/
  | vbfi (d : VReg) (a b : VSrc) (ty : BitVec 4) (pos : BitVec 5) (len : BitVec 6)
  /-- R173. Moves values across active lanes by index, up, down or xor. -/
  | vshuf (f : BitVec 2) (d : VReg) (a b : VSrc) (ty : BitVec 4)
  /-- R174. Any, all or ballot vote on a predicate into scalars. -/
  | vvote (f : BitVec 2) (d : SReg) (p : BitVec 3) (n : Bool)
  /-- R175. Inclusive or exclusive scan over the active lanes in ascending lane id. -/
  | vscan (op : BitVec 3) (d a : VReg) (ra : Bool) (ty : BitVec 4) (sat excl : Bool)
  /-- R175. Reduction over the active lanes, written to every active lane. -/
  | vred (op : BitVec 3) (d a : VReg) (ra : Bool) (ty : BitVec 4) (sat : Bool)
  /-- R44. Fuses two warps of a group into the lower-indexed recipient and retires the donor. -/
  | regrp (a b : VReg) (m : BitVec 7)
  /-- R177. Vector float add, F3 form at .f32 and .rn. -/
  | vfadd (d : VReg) (a b : VSrc)
  /-- R177. Vector float add or subtract, FX form. -/
  | vfaddFx (sub : Bool) (d : VReg) (a b : VSrc) (ty : BitVec 4) (rm : BitVec 3)
  /-- R177. Vector float multiply, F3 form. -/
  | vfmul (d : VReg) (a b : VSrc)
  /-- R177. Vector float multiply, FX form. -/
  | vfmulFx (d : VReg) (a b : VSrc) (ty : BitVec 4) (rm : BitVec 3)
  /-- R177. Vector fused multiply-add with one rounding. -/
  | vfma (sub : Bool) (d : VReg) (a b : VSrc) (c : CSrc) (ty : BitVec 4) (rm : BitVec 3)
  /-- R180. Vector float minimum returning the non-NaN operand. -/
  | vfmin (d : VReg) (a b : VSrc) (ty : BitVec 4)
  /-- R180. Vector float maximum returning the non-NaN operand. -/
  | vfmax (d : VReg) (a b : VSrc) (ty : BitVec 4)
  /-- R181. Vector float compare into a predicate, with unordered and ordered forms. -/
  | vfcmp (f : BitVec 3) (p : BitVec 3) (a b : VSrc) (ty : BitVec 4)
  /-- R182. Writes a one-hot class mask of each lane's float value. -/
  | vfcls (d : VReg) (a : VSrc) (ty : BitVec 4)
  /-- R184. Converts one value per active lane between types. -/
  | vfcvt (d a : VReg) (ra : Bool) (dst src : BitVec 5) (rm : BitVec 3) (seed : SReg) (sat : Bool)
  /-- R185. Packs 24 FP32 values per granule into a scaled granule. -/
  | vfcvtPack (d a : VReg) (ra : Bool) (dst : BitVec 5) (rm : BitVec 3) (seed : SReg) (sat : Bool)
  /-- R185. Unpacks each scaled granule into 24 FP32 values. -/
  | vfcvtUnpack (d a : VReg) (ra : Bool) (src : BitVec 5) (rm : BitVec 3) (sat : Bool)
  /-- R178. Correctly rounded reciprocal, F3 form. -/
  | vrcp (d : VReg) (a : VSrc)
  /-- R178. Correctly rounded reciprocal, FX form. -/
  | vrcpFx (d : VReg) (a : VSrc) (ty : BitVec 4) (rm : BitVec 3)
  /-- R178. Correctly rounded reciprocal square root, F3 form. -/
  | vrsq (d : VReg) (a : VSrc)
  /-- R178. Correctly rounded reciprocal square root, FX form. -/
  | vrsqFx (d : VReg) (a : VSrc) (ty : BitVec 4) (rm : BitVec 3)
  /-- R178. Correctly rounded 2^a, F3 form. -/
  | vexp2 (d : VReg) (a : VSrc)
  /-- R178. Correctly rounded 2^a, FX form. -/
  | vexp2Fx (d : VReg) (a : VSrc) (ty : BitVec 4) (rm : BitVec 3)
  /-- R178. Correctly rounded log2 a, F3 form. -/
  | vlog2 (d : VReg) (a : VSrc)
  /-- R178. Correctly rounded log2 a, FX form. -/
  | vlog2Fx (d : VReg) (a : VSrc) (ty : BitVec 4) (rm : BitVec 3)
  /-- R179. Writes sin(pi a) and cos(pi a) to two registers. -/
  | vsincos (d c : VReg) (a : VSrc) (ty : BitVec 4) (rm : BitVec 3)
  /-- R183. Four-way dot product accumulated into FP32 with one rounding. -/
  | vdot (d : VReg) (a b : VSrc) (c : CSrc) (ty : BitVec 4) (rm : BitVec 3)
  /-- R177. Multiplies by an E8M0 scale 2^(X-127). -/
  | vscl (d : VReg) (a b : VSrc) (ty : BitVec 4) (rm : BitVec 3)
  /-- R195. Per-lane load from device virtual space, possibly served from the L1. -/
  | ld (d : VReg) (cnt : BitVec 2) (m : MemOpnd) (off : VReg) (ty : BitVec 4) (slot : BitVec 3)
  /-- R197. Per-lane store written through to its home. -/
  | st (d : VReg) (cnt : BitVec 2) (m : MemOpnd) (off : VReg) (ty : BitVec 4) (slot : Slot)
  /-- R196. Per-lane load read at the home, bypassing the L1. -/
  | ldb (d : VReg) (cnt : BitVec 2) (m : MemOpnd) (off : VReg) (ty : BitVec 4) (slot : BitVec 3)
  /-- R198. Load from the scratchpad or the seam window under a swizzle mode. -/
  | lds (d : VReg) (cnt : BitVec 2) (seam : Bool) (swz : BitVec 2) (m : MemOpnd) (off : VReg) (ty : BitVec 4) (slot : BitVec 3)
  /-- R198. Store to the scratchpad or the seam window under a swizzle mode. -/
  | sts (d : VReg) (cnt : BitVec 2) (seam : Bool) (swz : BitVec 2) (m : MemOpnd) (off : VReg) (ty : BitVec 4) (slot : Slot)
  /-- R202. Indivisible read-modify-write per active lane at the home, with order and scope. -/
  | atom (f : BitVec 3) (d : VReg) (m : MemOpnd) (c : VReg) (ty : BitVec 4) (ord : BitVec 2) (scope : BitVec 3) (noret sd : Bool) (slot : Slot)
  /-- R203. Indivisible read-modify-write per active lane at scratchpad or seam-window banks. -/
  | atoms (f : BitVec 3) (d : VReg) (m : MemOpnd) (c : VReg) (ty : BitVec 4) (sd : Bool) (swz : BitVec 2) (seam : Bool) (slot : BitVec 3)
  /-- R205. Release, acquire or both, of a named scope. -/
  | fence (scope : BitVec 3) (kind : BitVec 2)
  /-- R206. Forms effective addresses, or with PROBE writes the translation probe word. -/
  | wadr (d : VReg) (cnt : BitVec 2) (m : MemOpnd) (off : VReg) (ty : BitVec 4) (probe : Slot)
  /-- R207. Makes the sectors that a matching LD would read valid in the LLC and page cache. -/
  | pref (cnt : BitVec 2) (m : MemOpnd) (off : VReg) (ty : BitVec 4)
  /-- R215. Asynchronous copy of a tensor box described by a layout record. -/
  | cpx (a b c : SReg)
  /-- R217. Reads an index list into one of the warp's index buffers. -/
  | cgatIdx (a b : SReg) (ty : BitVec 4)
  /-- R218. Gathers rows through the warp's latest index buffer. -/
  | cgatRow (d a b c : SReg) (kind swz : BitVec 2)
  /-- R220. Scatters rows through the warp's latest index buffer. -/
  | csct (d a b c : SReg) (kind swz : BitVec 2)
  /-- R221. Reduces a source array element by element into a destination at its home. -/
  | cred (f : BitVec 2) (d a b : SReg) (ty : BitVec 4) (kind swz : BitVec 2)
  /-- R210. Seals the warp's open batch, optionally with a completion word write or add. -/
  | cseal (cw add : Bool) (d a : SReg)
  /-- R211. Waits until the warp's unfinished-batch count is at most n. -/
  | cwait (n : BitVec 8)
  /-- R225. Flips the side of an open lining at its record's home, publishing the back side. -/
  | turn (a : SReg) (slot : Slot)
  /-- R223. Opens a lining by writing its record. -/
  | lnopen (d a b c : SReg)
  /-- R223. Closes an open lining with SIDE 0 after the warp's earlier asynchronous operations. -/
  | lnopenClose (d : SReg)
  /-- R227. Requests a fetch of a region of an installed fold. -/
  | pfoldFetch (a b c : SReg)
  /-- R227. Reads and checks a fold record, resets its counter and runs its schedule loop. -/
  | pfoldInstall (a : SReg)
  /-- R227. Performs the release action on a region of an installed fold. -/
  | pfoldRelease (a b c : SReg)
  /-- R228. Releases a fold, stopping its schedule and resetting its counter. -/
  | foldx (a : SReg)
  /-- R229. Binds a landing window to the context and sets its COUNT to zero. -/
  | landarm (a : SReg)
  /-- R282. Loads rows of dense data or darned blocks into a tile. -/
  | tld (t : BitVec 4) (a b : SReg) (darned : Bool) (ty : BitVec 4) (rows : BitVec 7) (sp acc : Bool) (slot : Slot)
  /-- R283. Stores rows of a tile to memory. -/
  | tst (t : BitVec 4) (a b : SReg) (rows : BitVec 7) (slot : Slot)
  /-- R285. Zeroes a tile as an FP32 or FP64 accumulator, or makes it empty. -/
  | tzero (t : BitVec 4) (k : BitVec 2)
  /-- R286. Converts an FP32 accumulator tile into an operand tile. -/
  | tcvt (d a : BitVec 4) (ty : BitVec 4) (rm : BitVec 3) (c0 : BitVec 8) (sat : Bool) (slot : Slot)
  /-- R287. Moves words from vector registers into a tile or its hem and sets its tag. -/
  | tmovVt (t : BitVec 4) (a : VReg) (ra : Bool) (b : SReg) (ty : BitVec 4) (n : BitVec 3) (hem sp acc form : Bool) (slot : Slot)
  /-- R287. Moves words from a tile or its hem into vector registers. -/
  | tmovTv (d : VReg) (t : BitVec 4) (b : SReg) (n : BitVec 3) (hem : Bool) (slot : BitVec 3)
  /-- R288. Tile matrix multiply-accumulate D := A x B + C. -/
  | mma (d a b c : BitVec 4) (hi zc : Bool) (slot : Slot)
  /-- R288. Tile matrix multiply-accumulate that skips dead sparse band-blocks. -/
  | mmas (d a b c : BitVec 4) (hi zc : Bool) (slot : Slot)
  /-- R231. Has no effect. -/
  | nop
  /-- R41. Reads a special value such as lane id, indices or the local cycle count. -/
  | sread (d : VReg) (sel : BitVec 4)
  /-- R233. Reads a control and status register. -/
  | csrr (d : SReg) (c : BitVec 11)
  /-- R233. Writes a control and status register. -/
  | csrw (a : SReg) (c : BitVec 11)
  /-- R238. Sends a service request message to the core's supervisor warp. -/
  | svreq (a : SReg) (n : BitVec 11)
  /-- R236. Sends a 64-byte message to a named warp's mailbox. -/
  | mbxSend (d a : SReg) (slot : Slot)
  /-- R237. Receives the oldest message addressed to the warp and frees its slot. -/
  | mbxRecv (d c : SReg) (slot : BitVec 3)
  /-- R239. Requests more extension register blocks, blocking or not. -/
  | xgrow (nb : Bool) (k : BitVec 3)
  /-- R239. Releases the highest held extension blocks. -/
  | xdrop (k : BitVec 3)
  /-- R240. Joins the warp to its group's seam. -/
  | seamj
  /-- R240. Detaches the warp from its seam after its seam-window accesses are applied. -/
  | seamd
  /-- R145. Waits for earlier flags and traps with ARITH_STICKY if an enabled flag is set. -/
  | tfence
  /-- R242. Drops every cached translation of the context for one address. -/
  | pginvPage (a : SReg) (slot : Slot)
  /-- R242. Drops every cached translation of the context. -/
  | pginvCtx (slot : Slot)
  /-- R243. Reads a lease record into four scalars. -/
  | leaseopRd (d a : SReg) (slot : BitVec 3)
  /-- R243. Writes a lease record from four scalars in one step. -/
  | leaseopWr (a b : SReg) (slot : Slot)
  /-- R244. Stops the mending core that executes it. -/
  | halt
  /-- R235. Returns the oldest posted demand record not yet returned and advances past it. -/
  | demnext (d : SReg)
  -- events
  /-- R327. A completion for a host-homed MemRd, AtomicOp or zero-length read, or a BIRsp answering a recall, arrives from the host over the host port. -/
  | hostPortResponse (r : HostResp)
  /-- R32. The bound of an open RCW expires; its parked lanes are released and q is set to 0. -/
  | rcwTimeout (warp : Nat)
  /-- R53. A parked WANY's re-evaluation finds a binding that holds and resumes the warp at its handler with s0 and s1 written. -/
  | wanyResume (warp : Nat)
  /-- R50. The cycle count of a timeout binding of a parked WANY is reached. -/
  | wanyTimeout (warp : Nat)
  /-- R27. At a window boundary the quad's issue arbiter grants the next window round-robin to a slot with a Ready warp. -/
  | windowGrant (u : IssueUnit) (elapsed : Nat)
  /-- R99. A variable-latency result is written and its scoreboard slot count is decremented. -/
  | registerResultLanding (op : Nat) (elem : Option Nat)
  /-- R40. A waiting XGROW request is granted once earlier requests are granted and free lane-blocks cover it. -/
  | registerGrant (core quad : Nat)
  /-- R236. A message enters the target core's mailbox and sets MBOX in the receiver's PEND, or is discarded. -/
  | mailboxArrival (n : Nat)
  /-- R77. A request held at its source for a full demand queue posts its record when an entry frees. -/
  | demandRecordPost (core : Nat)
  /-- R77. Answers a demand event with replay, reissuing its held requests in order. -/
  | demrespReplay (core tag : Nat)
  /-- R77. Answers a demand event with decline, making each held access take the cause as a precise trap. -/
  | demrespDecline (core tag : Nat) (cause : Byte)
  /-- R248. The device drops an L1 sector at a cycle of its choosing. -/
  | l1SectorDrop (core sector : Nat)
  /-- R209. An asynchronous operation completes when every destination byte has reached its home or back side. -/
  | asyncOpComplete (op n : Nat)
  /-- R209. A sealed batch finishes when its operations are complete, its completion word is home and earlier batches are finished. -/
  | batchFinish (warp : Nat)
  /-- R276. A free matrix pipe starts the oldest startable entry of a group chosen round-robin. -/
  | matrixPipeStart (cluster pipe : Nat)
  /-- R275. A matrix entry completes on its pipe, writes its tile and decrements any named slot. -/
  | matrixEntryComplete (cluster pipe rows : Nat)
  /-- R80. The owning mending core's count reaches EXPIRY and the lease becomes Expired. -/
  | leaseExpiry (lease : Nat)
  /-- R340. Lease acquire message sent from an outbound ring slot to the pool manager. -/
  | lacq (core slot : Nat)
  /-- R341. Lease grant message arrives in the inbound ring. -/
  | lgrant (core : Nat) (m : LeaseMsg)
  /-- R342. Lease denial message arrives in the inbound ring. -/
  | ldeny (core : Nat) (m : LeaseMsg)
  /-- R342. Lease renewal message sent to the pool manager, moving the lease to Renewing. -/
  | lrenew (core slot : Nat)
  /-- R340. Lease release message sent to the pool manager. -/
  | lrel (core slot : Nat)
  /-- R341. Pool-node loss message moves every record naming the node to Lost. -/
  | llost (core : Nat) (node : BitVec 16)
  /-- R343. Back-invalidation of a lease-directory line rereads it and applies revocation or loss for changed DSTATE. -/
  | directoryBackInvalidation (lease : Nat) (r : DirRec)
  /-- R344. Back-invalidation of a pressed page from the pool home drops it and answers with BIRsp. -/
  | bisnp (page : Nat) (contents : List Byte)
  /-- R339. A pool-port MemRd or MemWr completion arrives. -/
  | poolCompletion (id : Nat)
  /-- R404. A pool-port request has had no completion within its timeout. -/
  | poolTimeout (id : Nat)
  /-- R404. A pool port fails recovery or its IDE stream and goes out of service. -/
  | poolPortDown (port : Nat)
  /-- R433. An out-of-service pool port retrains every 100 ms and returns at L0 with IDE. -/
  | poolPortRetrain (port : Nat) (ok : Bool)
  /-- R92. A posted write arrives at the landing port and is decoded, applied or discarded. -/
  | landingWrite (req : BitVec 16) (off : Nat) (data : List Byte) (poisoned : Bool)
  /-- R296. A live LAUNCH packet is parsed, its descriptor read and a grid created. -/
  | launch (q : Nat)
  /-- R297. A FENCE packet holds the parser until listed count words reach their thresholds. -/
  | fencePacket (q : Nat)
  /-- R298. A COUNT packet adds a value to a count word. -/
  | countPacket (q : Nat)
  /-- R298. A WRITE packet makes one 8-byte store. -/
  | writePacket (q : Nat)
  /-- R298. A COPY packet has a copy engine copy bytes. -/
  | copyPacket (q : Nat)
  /-- R293. A packet completes, writing its completion record and count-word addition. -/
  | packetComplete (q slot : Nat)
  /-- R290. EN changes from 0 to 1, resetting RDIDX, PAR, DEFICIT and STATE. -/
  | queueEnable (q : Nat)
  /-- R290. EN changes from 1 to 0, stopping parsing after the packet being parsed. -/
  | queueDisable (q : Nat)
  /-- R303. At a placement opportunity the scheduler selects a queue and places or restores its next group. -/
  | groupPlacement (part : Nat)
  /-- R308. The scheduler pre-empts groups of a core for a higher-level queue and decides drain, flush or save. -/
  | preemption (part : Nat)
  /-- R312. Every save handler has ended and every save store and tile is home; the group becomes Absent. -/
  | saveComplete (group : Nat)
  /-- R305. Seam rendezvous reservation request from the leader. -/
  | reserve (src : Sender) (seam : Word)
  /-- R305. Answer that a device holds room for its seam members. -/
  | reserved (src : Sender) (seam : Word)
  /-- R305. Answer that a device cannot reserve room for the seam. -/
  | busy (src : Sender) (seam : Word)
  /-- R305. Leader tells each device to make its seam members resident. -/
  | commit (src : Sender) (seam : Word)
  /-- R305. Answer that a device's seam members are resident. -/
  | ready (src : Sender) (seam : Word)
  /-- R305. Leader lets seam members issue, or lets a stopped seam drain. -/
  | go (src : Sender) (seam : Word)
  /-- R305. Leader tells devices to free reserved seam room. -/
  | release (src : Sender) (seam : Word)
  /-- R306. A member device gives up an uncommitted reservation. -/
  | revoke (src : Sender) (seam : Word)
  /-- R307. A device asks the leader to pre-empt a seam. -/
  | stopreq (src : Sender) (seam : Word)
  /-- R307. Leader tells every member device to stop its members. -/
  | stop (src : Sender) (seam : Word)
  /-- R307. Answer with each member's drain or save decision. -/
  | stopped (src : Sender) (seam : Word) (dec : Word)
  /-- R307. Leader tells every member device to save its members. -/
  | save (src : Sender) (seam : Word)
  /-- R307. A member device reports a member detached to the leader. -/
  | detached (src : Sender) (seam : Word) (member : Nat)
  /-- R307. Leader reports every member detached so held exits complete. -/
  | exitdone (src : Sender) (seam : Word)
  /-- R305. A rendezvous has waited 1,048,576 cycles without all answers and is released. -/
  | rendezvousTimeout (seam : Word)
  /-- R305. The backoff after a failed rendezvous expires and the leader retries. -/
  | rendezvousRetry (seam : Word)
  /-- R319. CMD 1 checkpoints the selected partitions and leaves them stopped. -/
  | ckptAndStop (parts : Byte)
  /-- R319. CMD 2 checkpoints the selected partitions and resumes them. -/
  | ckptAndContinue (parts : Byte)
  /-- R319. CMD 3 resumes the stopped partitions. -/
  | ckptResume (parts : Byte)
  /-- R319. The checkpoint image is complete in flash, or fails, and STATUS becomes 2 or 4. -/
  | checkpointDone (ok : Bool)
  /-- R324. A host CXL.mem read or write at a host-window offset is served at its home: the address, in the HDM range that starts at base. -/
  | hostWindowAccess (base addr : Nat) (acc : HostAcc)
  /-- R334. A GO write to the plane map starts holding requests of a slice. -/
  | planeMapUpdate (slice plane : Nat)
  /-- R334. Once the slice's sent requests are answered, MAP and RV change and held requests are sent. -/
  | planeRemapCommit
  /-- R332. A Kagon read request arrives at its target. -/
  | flitRead (port : Nat) (f : Flit)
  /-- R332. A Kagon write request arrives at its target. -/
  | flitWrite (port : Nat) (f : Flit)
  /-- R332. A Kagon atomic request with result arrives at its target. -/
  | atomicWithResult (port : Nat) (f : Flit)
  /-- R332. A Kagon atomic request without result arrives at its target. -/
  | atomicWithoutResult (port : Nat) (f : Flit)
  /-- R332. A Kagon CRED reduction request arrives at its target. -/
  | reduction (port : Nat) (f : Flit)
  /-- R332. A flit with an OP not in Table 11-7 or a DEST other than PEERNUM arrives and is discarded, counting in LNKSTAT.DISCARD. -/
  | flitDiscard (rcv : Link)
  /-- R332. A Kagon read answer arrives at the requester. -/
  | readData (port : Nat) (f : Flit)
  /-- R332. A Kagon write answer arrives at the requester. -/
  | writeDone (port : Nat) (f : Flit)
  /-- R332. A Kagon atomic answer with the old value arrives. -/
  | atomicResult (port : Nat) (f : Flit)
  /-- R423. A target answers that it lacks the operation, and the lane takes REMOTE_OP_UNSUPPORTED. -/
  | notImplemented (port : Nat) (f : Flit)
  /-- R423. A target refuses a request with a cause that the issuing lane takes. -/
  | refused (port : Nat) (f : Flit)
  /-- R337. A firmware message with a code 0x80 to 0xFF is delivered to a mending core's inbound ring. -/
  | firmwareMessage (core : Nat) (m : FwMsg)
  /-- R338. Request from the counting device to the old home to migrate a page. -/
  | migreq (core : Nat) (m : FwMsg)
  /-- R338. Old home reports that a migrated page's held requests are answered. -/
  | migdone (core : Nat) (m : FwMsg)
  /-- R338. Old home refuses a migration with a reason. -/
  | mignak (core : Nat) (m : FwMsg)
  /-- R338. Starts holding requests to a page at the home slices. -/
  | migctlHold (core page : Nat)
  /-- R338. Turns the core's hold into a forward to MIGTGT. -/
  | migctlForward (core : Nat)
  /-- R338. Clears the forward of a page. -/
  | migctlClear (core page : Nat)
  /-- R338. Ends the core's hold and applies its held requests in order. -/
  | migctlEndHold (core : Nat)
  /-- R338. Every request that arrived before a hold has been applied and MIGSTAT.HELD becomes 1. -/
  | holdDrained (core : Nat)
  /-- R347. CMD 1 starts a partition after disjointness, share and key checks. -/
  | partitionStart (p : Nat)
  /-- R428. CMD 2 resets a running partition, killing its grids and restarting its supervisors. -/
  | partitionReset (p : Nat)
  /-- R347. CMD 3 returns an idle partition to STATE 0. -/
  | partitionStop (p : Nat)
  /-- R346. A vendor-defined SPDM request installs a 256-bit partition or domain pressed key. -/
  | keyInstall (p : Nat) (key : BitVec 256)
  /-- R350. SPDM request returning the SM3 measurement digests. -/
  | getMeasurements (req : MeasReq)
  /-- R349. SPDM request provisioning certificate slots 1 to 7. -/
  | setCertificate (slot : Nat) (chain : List Byte)
  /-- R355. Package reset is released and the boot ROM runs its stages. -/
  | packageResetRelease (f : BootFacts)
  /-- R357. Management write of CFGDONE.GO ends stage CFG and selects resume. -/
  | cfgdoneGo (resume : Bool) (f : LinkFacts)
  /-- R434. A boot stage waiting on pool IDE or the reserve lease retries after one second. -/
  | bootRetry (f : LinkFacts)
  /-- R361. Management command returning a 32-bit register. -/
  | rdreg (index : Nat)
  /-- R415. Management command writing a management register that has no row of its own. -/
  | wrreg (index : Nat) (value : Word)
  /-- R361. Management command delivering firmware image data or writing the unbooted flash slot. -/
  | fwimage (slotB : Bool) (chunk : FwChunk)
  /-- R362. Management command restarting a halted mending core. -/
  | mrestart (core : Nat) (off : Word)
  /-- R361. Management command resetting the package and restarting at stage ROM. -/
  | devreset
  /-- R430. The 1 ms monitor sample updates the monitor registers and applies threshold actions. -/
  | monitorSample (m : Sample)
  /-- R380. A buffered trap record is delivered to the supervisor's mailbox when a slot frees. -/
  | trapRecordDelivery (core : Nat)
  /-- R390. A group parked only on barriers for 65,536 cycles is killed as stuck. -/
  | stuckGroupTimeout (group : Nat)
  /-- R408. An uncorrectable error is found in a sector and it is refetched or made lost. -/
  | uncorrectableError (loc : ErrLoc)
  /-- R408. Firmware writes ACK in a lost-sector ring entry, releasing its held requests. -/
  | lostSectorAck (core slot : Nat)
  /-- R413. HBMFENCE GO starts fencing a stack. -/
  | hbmFence (stack : Nat)
  /-- R413. The stack's frames are moved; FENCED is set and BUSY cleared. -/
  | hbmFenceComplete
  /-- R433. Retrains a fenced stack and returns it to service on success. -/
  | hbmret (stack : Nat) (ok : Bool)
  /-- R417. The per-millisecond update of each Kagon lane's health score, recalibrating or retiring lanes. -/
  | laneHealthUpdate (port : Nat) (bursts : List Nat)
  /-- R419. Starts recalibration of a Kagon lane. -/
  | lnkctlRecalibrate (port lane : Nat)
  /-- R418. Retires a Kagon lane. -/
  | lnkctlRetire (port lane : Nat)
  /-- R419. Restores a retired Kagon lane. -/
  | lnkctlRestore (port lane : Nat)
  /-- R419. A lane under recalibration or restore retrains and returns, or is retired. -/
  | laneRetrainDone (port lane : Nat) (ok : Bool)
  /-- R420. A Kagon port goes down and its slices are remapped. -/
  | kagonPortDown (port : Nat)
  /-- R422. A Kagon request unanswered for 2^21 cycles is ended. -/
  | kagonRequestTimeout (plane tag : Nat)
  /-- R424. The host link leaves L0 or fails IDE; buffered host stores are dropped and groups marked. -/
  | hostLinkDown
  /-- R431. Starts fencing a cluster by pre-empting its groups. -/
  | clctlFence (cluster : Nat)
  /-- R431. Returns a fenced cluster to service. -/
  | clctlReturn (cluster : Nat)
  /-- R431. The fenced cluster holds no group and its CLFENCED bit is set. -/
  | clusterFenceComplete
  /-- R432. Updates one mending core's firmware while the others run. -/
  | mfwupd (core : Nat)
  /-- R6. A write to a register or descriptor field that has no row of its own, by its access code. -/
  | registerWrite (off : Nat) (val : DWord)
  /-- R246. A store, atomic, STS or ATOMS request that left its core is applied at its home, which ends FENCE.REL, SEAMD and retirement waits. -/
  | appliedAtHome (op elem : Nat)
  /-- R424. The host link returns to L0 after having been down, and host-homed requests are carried again while existing marks stay. -/
  | hostLinkUp
  /-- R421. A Kagon port that was down retrains and comes up again, raising the plane count without taking back slices. -/
  | kagonPortUp (port : Nat)
  /-- R330. A received Kagon flit fails its CRC after FEC correction and the sender is asked to replay it by sequence number. -/
  | flitCrcFailure (rcv : Link)
  /-- R328. A non-posted request arrives at the landing port and is answered with Unsupported Request status, with no effect. -/
  | nonPostedRequest (req : BitVec 16)
  /-- R410. A corrected error occurs in an HBM stack, and the ring entry of KIND 6 is written when the count passes a multiple of 65,536. -/
  | correctedError (stack : Nat)
  /-- R410. An HBM stack fails in service and the device fences it itself under R413. -/
  | stackFailure (stack : Nat)
  /-- R354. Module input power is lost, and hold-up energy completes a flash write that is in progress. -/
  | inputPowerLoss
  /-- R349. An SPDM KEY_EXCHANGE over I3C or DOE establishes the secure session that key installation and every management command other than RDREG require. -/
  | keyExchange (ok : Bool)
  deriving DecidableEq, Repr

end Sys2Proof
end

