-- ==== Sys2Proof/WellFormed.lean ====
section
/-! DEFINITION. Which terms of Instr an encoding of VX can give: the ILLEGAL_ENCODING conditions of 04 R116 on the
fields that each constructor carries. An event has no encoding, and nothing is checked of it. -/

namespace Sys2Proof

/-- FN 6 of SLOG and VLOG reads a only: its second operand field is zero (06 R160). -/
def SOpnd.isZero : SOpnd → Bool
  | .reg b => b == 0
  | .imm _ => false

/-- The second source of an instruction that does not read one: the zero field (06 R148). -/
def VSrc.isZero : VSrc → Bool
  | .vec r u => r == 0 && !u
  | .scl _ => false

/-- An F3 form names at most one scalar source (04 Table 4-3). -/
def VSrc.f3Pair : VSrc → VSrc → Bool
  | .scl _, .scl _ => false
  | _, _ => true

/-- The memory operand (07 R186, R188): without index its fields are zero; a reuse hint only on a vector field; a
scalar base below 64. -/
def MemOpnd.wf (m : MemOpnd) : Bool :=
  (m.ix || (m.b == 0 && m.sc == 0 && !m.iu && !m.rb)) && (m.vb || (!m.ra && m.a.toNat < 64))

/-- Register count field: 1, 2 or 4 (04 Table 4-13). -/
def cntWf (c : BitVec 2) : Bool := c != 3

/-- Types of class 4 (04 Table 4-10). -/
def memTypeWf (t : BitVec 4) : Bool := t.toNat < 12

/-- Types of Table 7-3: ATOM (with .f64) and ATOMS. -/
def atomTypeWf (f64 : Bool) (f : BitVec 3) (t : BitVec 4) : Bool :=
  let n := t.toNat
  let int := n == 2 || n == 3 || n == 6 || n == 7
  let flt := n == 10 || (f64 && n == 11)
  if f == 3 || f == 4 || f == 5 then int else int || flt

/-- Copy kinds and swizzle: kind 0b11 is not assigned, and a device-virtual side has no swizzle (07 R218). -/
def kindWf (kind swz : BitVec 2) : Bool := kind != 3 && (kind != 0 || swz == 0)

/-- Tags that a TMOV may set (09 Table 9-2, R287). -/
def tagWf (ty : BitVec 4) (sp acc form : Bool) : Bool :=
  let n := ty.toNat
  (!form || sp) &&
  (if acc then !sp && (n == 2 || n == 3)
   else if sp then 7 ≤ n && n ≤ 10
   else n ≤ 10 && n != 2)

/-- Types 2, 3, 6 and 7 of class 2. -/
def ty32or64 (t : BitVec 4) : Bool := t == 2 || t == 3 || t == 6 || t == 7

/-- Rounding codes outside VFCVT (04 R113). -/
def rmWf (rm : BitVec 3) : Bool := rm.toNat < 4

/-- The terms that an encoding gives (04 R112, R113, R115, R116; 06 R148; the instruction descriptions). -/
def Instr.wf : Instr → Bool
  | .emask op m d => if op == 3 then m == 0 else d == 0
  | .eclr rd d _ => rd || d == 0
  | .sadd f _ _ _ => f.toNat < 6
  | .ssub f _ _ _ => f.toNat < 6
  | .smul f _ _ _ => f.toNat < 4
  | .smad high ty _ _ _ _ => ty32or64 ty && (!high || ty == 2 || ty == 6)
  | .slog f _ _ b => f.toNat < 7 && (f != 6 || b.isZero)
  | .sshf f _ _ _ => f.toNat < 5
  | .scmp f _ _ _ _ => f.toNat < 6
  | .sjmp f d a imm =>
    f.toNat < 5 && (f == 4 || a == 0) && (f != 4 || (imm == 0 && d == 0)) && (f != 2 || d == 0) &&
    (f.toNat > 1 || d.toNat < 4)
  | .scnt f _ _ => f.toNat < 3
  | .vadd _ a b => a.f3Pair b
  | .vsub _ a b => a.f3Pair b
  | .vmul _ a b => a.f3Pair b
  | .vdiv _ a b => a.f3Pair b
  | .vlog _ a b => a.f3Pair b
  | .vshf _ a b => a.f3Pair b
  | .vfadd _ a b => a.f3Pair b
  | .vfmul _ a b => a.f3Pair b
  | .vaddFx _ _ _ ty _ => ty.toNat < 8
  | .vsubFx _ _ _ ty _ => ty.toNat < 8
  | .vmulFx high _ _ _ ty sat => ty.toNat < 8 && !(high && sat)
  | .vmad high _ _ _ _ ty sat => ty.toNat < 8 && !(high && sat)
  | .vdivFx _ _ _ _ ty => ty.toNat < 8
  | .vlogFx f _ _ b ty => ty.toNat < 8 && f.toNat < 7 && (f != 6 || b.isZero)
  | .vshfFx f _ _ _ ty => ty.toNat < 8 && f.toNat < 5
  | .vmin _ _ _ ty => ty.toNat < 8
  | .vmax _ _ _ ty => ty.toNat < 8
  | .vcmp f _ _ _ ty => ty.toNat < 8 && f.toNat < 6
  | .vsel _ _ z _ _ b _ => !z || b.isZero
  | .vcnt _ _ _ ty => ty32or64 ty
  | .vbfx _ _ ty _ _ => ty == 2 || ty == 6
  | .vbfi _ _ _ ty _ _ => ty == 2 || ty == 6
  | .vshuf _ _ _ _ ty => ty32or64 ty
  | .vvote f _ _ _ => f != 3
  | .vscan op _ _ _ ty sat _ => op.toNat < 6 && ty.toNat < 8 && (!sat || op == 0)
  | .vred op _ _ _ ty sat => op.toNat < 6 && ty.toNat < 8 && (!sat || op == 0)
  | .vfaddFx _ _ _ _ ty rm => ty.toNat < 4 && rmWf rm
  | .vfmulFx _ _ _ ty rm => ty.toNat < 4 && rmWf rm
  | .vfma _ _ _ _ _ ty rm => ty.toNat < 4 && rmWf rm
  | .vfmin _ _ _ ty => ty.toNat < 4
  | .vfmax _ _ _ ty => ty.toNat < 4
  | .vfcmp _ _ _ _ ty => ty.toNat < 4
  | .vfcls _ _ ty => ty.toNat < 7
  | .vfcvt _ _ _ dst src rm seed _ =>
    dst.toNat < 15 && src.toNat < 15 && (8 ≤ dst.toNat || 8 ≤ src.toNat) && rm.toNat < 5 && (rm == 4 || seed == 0)
  | .vfcvtPack _ _ _ dst rm seed _ => 15 ≤ dst.toNat && dst.toNat ≤ 18 && rm.toNat < 5 && (rm == 4 || seed == 0)
  | .vfcvtUnpack _ _ _ src rm _ => 15 ≤ src.toNat && src.toNat ≤ 18 && rmWf rm
  | .vrcpFx _ _ ty rm => ty.toNat < 4 && rmWf rm
  | .vrsqFx _ _ ty rm => ty.toNat < 4 && rmWf rm
  | .vexp2Fx _ _ ty rm => ty.toNat < 3 && rmWf rm
  | .vlog2Fx _ _ ty rm => ty.toNat < 3 && rmWf rm
  | .vsincos _ _ _ ty rm => ty.toNat < 3 && rmWf rm
  | .vdot _ _ _ _ ty rm => (ty == 0 || ty == 1 || ty == 4 || ty == 5) && rmWf rm
  | .vscl _ _ _ ty rm => ty.toNat < 4 && rmWf rm
  | .ld _ cnt m _ ty _ => cntWf cnt && m.wf && memTypeWf ty
  | .st _ cnt m _ ty _ => cntWf cnt && m.wf && memTypeWf ty
  | .ldb _ cnt m _ ty _ => cntWf cnt && m.wf && memTypeWf ty
  | .lds _ cnt _ _ m _ ty _ => cntWf cnt && m.wf && memTypeWf ty
  | .sts _ cnt _ _ m _ ty _ => cntWf cnt && m.wf && memTypeWf ty
  | .atom f d m c ty _ scope noret sd slot =>
    m.wf && atomTypeWf true f ty && scope.toNat < 6 && (!noret || d == 0) && (noret || slot.isSome) &&
    (!sd || c.toNat < 64)
  | .atoms f _ m c ty sd _ _ _ => m.wf && atomTypeWf false f ty && (!sd || c.toNat < 64)
  | .fence scope kind => scope.toNat < 6 && kind != 0
  | .wadr _ cnt m _ ty _ => cntWf cnt && m.wf && memTypeWf ty
  | .pref cnt m _ ty => cntWf cnt && m.wf && memTypeWf ty
  | .cgatIdx _ _ ty => ty == 5 || ty == 6 || ty == 2 || ty == 7
  | .cgatRow _ _ _ _ kind swz => kindWf kind swz
  | .csct _ _ _ _ kind swz => kindWf kind swz
  | .cred f _ _ _ ty kind swz =>
    f != 3 && kindWf kind swz && (ty32or64 ty || (8 ≤ ty.toNat && ty.toNat ≤ 11))
  | .cseal cw add d a => cw || (!add && d == 0 && a == 0)
  | .tld _ _ _ darned ty _ sp acc _ =>
    let n := ty.toNat
    if darned then 7 ≤ n && n ≤ 10 && !acc
    else !sp && (if acc then n == 2 || n == 3 else n ≤ 6 && n != 2)
  | .tzero _ k => k != 3
  | .tcvt _ _ ty rm _ _ _ => ty.toNat ≤ 10 && ty.toNat != 2 && ty.toNat != 3 && rmWf rm
  | .tmovVt _ _ _ _ ty n _ sp acc form _ => n.toNat < 5 && tagWf ty sp acc form
  | .tmovTv _ _ _ n _ _ => n.toNat < 5
  | .mma _ _ _ c _ zc _ => !zc || c == 0
  | .mmas _ _ _ c _ zc _ => !zc || c == 0
  | .sread d sel => sel == 0 || d.toNat < 64
  | .csrr _ c => c != 0x021
  | _ => true

end Sys2Proof
end

