-- ==== Sys2Proof/Decode.lean ====
section
/-! DEFINITION. Words to instructions (04 R103 to R116, R435): a total decoder that refuses every word that R116 calls
ILLEGAL_ENCODING, and the encoder. Words are numbers below 2^32. -/

namespace Sys2Proof

/-! ### Fields of the words -/

/-- Keeps a value when a condition holds. -/
def keepIf {α : Type} (c : Bool) (x : α) : Option α := if c then some x else none

def opF (w : Nat) : Nat := bitsOf w 25 7
def dF (w : Nat) : BitVec 7 := fld w 18 7
def aF (w : Nat) : BitVec 7 := fld w 11 7
def bF (w : Nat) : BitVec 7 := fld w 4 7
def modF (w : Nat) : Nat := bitsOf w 2 2
def raF (w : Nat) : Bool := bitAt w 1
def rbF (w : Nat) : Bool := bitAt w 0
def immF (w : Nat) : BitVec 11 := fld w 0 11
/-- D, A and B of an F3 word as scalars (bit 6 zero). -/
def dS (w : Nat) : BitVec 6 := fld w 18 6
def aS (w : Nat) : BitVec 6 := fld w 11 6
def bS (w : Nat) : BitVec 6 := fld w 4 6
def d6 (w : Nat) : Bool := bitAt w 24
def a6 (w : Nat) : Bool := bitAt w 17
def b6 (w : Nat) : Bool := bitAt w 10
/-- Fields of an FS word (04 Table 4-8). -/
def fsD (w : Nat) : BitVec 6 := fld w 19 6
def fsA (w : Nat) : BitVec 6 := fld w 13 6
def fsI (w : Nat) : Bool := bitAt w 12
def fsFn (w : Nat) : BitVec 3 := fld w 9 3
def fsK (w : Nat) : BitVec 9 := fld w 0 9
def fsB (w : Nat) : BitVec 6 := fld w 3 6
/-- Fields of an extension word (04 Tables 4-5 and 4-6). -/
def cF (x : Nat) : BitVec 7 := fld x 25 7
def cS (x : Nat) : BitVec 6 := fld x 25 6
def c6 (x : Nat) : Bool := bitAt x 31
def fnF (x : Nat) : Nat := bitsOf x 20 5
def tyF (x : Nat) : BitVec 4 := fld x 16 4
def saF (x : Nat) : Bool := bitAt x 15
def sbF (x : Nat) : Bool := bitAt x 14
def scF (x : Nat) : Bool := bitAt x 13
def satF (x : Nat) : Bool := bitAt x 12
def argF (x : Nat) : Nat := bitsOf x 0 12
def imm16F (x : Nat) : BitVec 16 := fld x 0 16
def sbeF (x : Nat) : Bool := bitAt x 15
def slotF (x : Nat) : BitVec 3 := fld x 12 3

/-- The second operand of an FS word; bits 2:0 of a register form are zero. -/
def sOpnd (w : Nat) : Option SOpnd :=
  if fsI w then some (.imm (fsK w)) else keepIf (bitsOf w 0 3 == 0) (.reg (fsB w))

/-- A vector source field, or a scalar one when the flag says so; a scalar field has bit 6 and its hint zero. -/
def srcOf (scl : Bool) (f : BitVec 7) (u : Bool) : Option VSrc :=
  if scl then keepIf (f.toNat < 64 && !u) (.scl (f.truncate 6)) else some (.vec f u)

/-- The third source of an FX word. -/
def srcC (x : Nat) : Option CSrc :=
  if scF x then keepIf (!c6 x) (.scl (cS x)) else some (.vec (cF x))

/-- Sources A and B of an FX word of classes 2 and 3. -/
def srcsFx (w x : Nat) : Option (VSrc × VSrc) := do
  let a ← srcOf (saF x) (aF w) (raF w)
  let b ← srcOf (sbF x) (bF w) (rbF w)
  return (a, b)

/-- Source A of an FX word whose B is unused: B, SB and its hint zero. -/
def srcFxA (w x : Nat) : Option VSrc := do
  let a ← srcOf (saF x) (aF w) (raF w)
  keepIf (bF w == 0 && !rbF w && !sbF x) a

/-- Sources of an F3 form by MOD (04 Table 4-3). -/
def srcsF3 (w : Nat) : Option (VSrc × VSrc) := do
  let a ← srcOf (modF w == 2) (aF w) (raF w)
  let b ← srcOf (modF w == 1) (bF w) (rbF w)
  return (a, b)

/-- Source A of an F3 form whose B is unused. -/
def srcF3A (w : Nat) : Option VSrc := do
  let a ← srcOf (modF w == 2) (aF w) (raF w)
  keepIf (modF w != 1 && bF w == 0 && !rbF w) a

/-- C and SC zero. -/
def noC (x : Nat) : Bool := cF x == 0 && !scF x

/-- An optional slot: SB is zero when none is named (04 R106). -/
def slotOpt (x : Nat) : Option Slot :=
  if sbeF x then some (some (slotF x)) else keepIf (slotF x == 0) none

/-- A required slot (04 R99; 07 R186). -/
def slotReq (x : Nat) : Option (BitVec 3) := keepIf (sbeF x) (slotF x)

/-- No slot named. -/
def slotNone (x : Nat) : Bool := !sbeF x && slotF x == 0

/-- The memory operand of class 4 (07 Table 7-2). -/
def memOpnd (w x : Nat) : MemOpnd :=
  { vb := bitAt x 11, a := aF w, ra := raF w, ix := bitAt x 10, b := bF w, rb := rbF w,
    sc := fld x 8 2, iu := bitAt x 7 }

/-- No reuse hint. -/
def noHints (w : Nat) : Bool := !raF w && !rbF w

/-- D, A and B of a word name scalars or are zero-extended scalars: bits 6 zero. -/
def scalars3 (w : Nat) : Bool := !d6 w && !a6 w && !b6 w

/-- A tile field: bits 6:4 zero (09 R280). -/
def tileWf (f : BitVec 7) : Bool := f.toNat < 16

/-- Checks the result against the well-formedness of its constructor. -/
def checkWf (i : Instr) : Option Instr := keepIf i.wf i

/-! ### Length (04 R435) -/

/-- Majors marked FX, F3/FX or FX (P) in Table 4-12, and VMOV/VIMM, whose second word follows when MOD = 0b11. -/
def fxMajor (op : Nat) : Bool :=
  op == 0x07 || op == 0x13 || (0x20 ≤ op && op ≤ 0x2F) || (0x30 ≤ op && op ≤ 0x3D) ||
  (0x40 ≤ op && op ≤ 0x49 && op != 0x47) || (0x50 ≤ op && op ≤ 0x53) || (0x56 ≤ op && op ≤ 0x58) ||
  op == 0x60 || op == 0x61 || (0x63 ≤ op && op ≤ 0x66) || op == 0x75 || op == 0x7C || op == 0x7D

/-- Number of words of the instruction that a first word begins: 1 or 2. -/
def instrLen (w : Nat) : Nat :=
  if opF w == 0x19 || opF w == 0x1B || (fxMajor (opF w) && modF w == 3) then 2 else 1

/-! ### Classes -/

/-- Class 0 (06 Table 6-1). -/
def decodeControl (w x : Nat) : Option Instr :=
  match opF w with
  | 0x00 => some (.bra (fld w 0 25))
  | 0x01 => some (.brc (fld w 22 3) (bitAt w 21) (fld w 0 21))
  | 0x02 => some (.brv (fld w 22 3) (bitAt w 21) (bitAt w 20) (fld w 0 20))
  | 0x03 => some (.call (dF w) (fld w 0 18))
  | 0x04 => keepIf (dF w == 0 && bF w == 0 && modF w == 0 && !rbF w) (.ret (aF w) (raF w))
  | 0x05 => keepIf (dF w == 0 && bF w == 0 && modF w == 0 && !rbF w) (.jmpi (aF w) (raF w))
  | 0x06 => keepIf (bitsOf w 22 3 == 0 && aF w == 0 && immF w == 0) (.exit (fld w 18 3) (bitAt w 21))
  | 0x07 => keepIf (bitsOf w 20 5 == 0 && aF w == 0 && bF w == 0 && modF w == 3 && noHints w &&
      bitsOf x 16 16 == 0) (.rcw (fld w 18 2) (imm16F x))
  | 0x08 => keepIf (bitsOf w 22 3 == 0 && aF w == 0 && immF w == 0) (.barg (fld w 18 4))
  | 0x09 => keepIf (bitsOf w 22 3 == 0 && aF w == 0 && immF w == 0) (.bara (fld w 18 4))
  | 0x0A => keepIf (dF w == 0 && aF w == 0 && bitsOf w 8 3 == 0) (.wany (fld w 0 8))
  | 0x0B => keepIf (bitsOf w 21 4 == 0 && !a6 w && !b6 w && modF w == 0 && noHints w)
      (.ebind (fld w 18 3) (aS w) (bS w))
  | 0x0C => (keepIf (!d6 w && aF w == 0 && !bitAt w 10) (.emask (fld w 8 2) (fld w 0 8) (dS w))).bind checkWf
  | 0x0D => (keepIf (!d6 w && !a6 w && bitsOf w 1 10 == 0) (.eclr (bitAt w 0) (dS w) (aS w))).bind checkWf
  | 0x0E => keepIf (dF w == 0 && aF w == 0 && immF w == 0) .yield
  | _ => none

/-- Class 1 (06 R160 to R167). -/
def decodeScalar (w x : Nat) : Option Instr :=
  match opF w with
  | 0x10 => (sOpnd w).bind fun b => checkWf (.sadd (fsFn w) (fsD w) (fsA w) b)
  | 0x11 => (sOpnd w).bind fun b => checkWf (.ssub (fsFn w) (fsD w) (fsA w) b)
  | 0x12 => (sOpnd w).bind fun b => checkWf (.smul (fsFn w) (fsD w) (fsA w) b)
  | 0x13 => (keepIf (scalars3 w && !c6 x && modF w == 3 && noHints w && fnF x < 2 && imm16F x == 0)
      (.smad (bitAt x 20) (tyF x) (dS w) (aS w) (bS w) (cS x))).bind checkWf
  | 0x14 => (sOpnd w).bind fun b => some (.sdiv (fsFn w) (fsD w) (fsA w) b)
  | 0x15 => (sOpnd w).bind fun b => checkWf (.slog (fsFn w) (fsD w) (fsA w) b)
  | 0x16 => (sOpnd w).bind fun b => checkWf (.sshf (fsFn w) (fsD w) (fsA w) b)
  | 0x17 => (sOpnd w).bind fun b =>
      keepIf (!bitAt w 11) (if bitAt w 9 then .smax (bitAt w 10) (fsD w) (fsA w) b
        else .smin (bitAt w 10) (fsD w) (fsA w) b)
  | 0x18 => (sOpnd w).bind fun b =>
      (keepIf (bitsOf w 22 3 == 0) (.scmp (fsFn w) (bitAt w 21) (fld w 19 2) (fsA w) b)).bind checkWf
  | 0x19 => (keepIf (!fsI w && fsK w == 0) (.sjmp (fsFn w) (fsD w) (fsA w) (fld x 0 32))).bind checkWf
  | 0x1A => (sOpnd w).bind fun b =>
      if bitAt w 11 then some (.ssel (fld w 9 2) (fsD w) (fsA w) b)
      else keepIf (fsFn w == 0 && fsA w == 0) (.smov (fsD w) b)
  | 0x1B => keepIf (bitsOf w 0 19 == 0) (.simm (fsD w) (fld x 0 32))
  | 0x1C => some (.sld (fsD w) (fsA w) (fsI w) (fsFn w) (fsK w))
  | 0x1D => keepIf (fsFn w == 0) (.sst (fsD w) (fsA w) (fsI w) (fsK w))
  | 0x1E => keepIf (!d6 w && bF w == 0 && modF w == 0 && !rbF w) (.srdl (dS w) (aF w) (raF w))
  | 0x1F => (keepIf (!fsI w && fsK w == 0) (.scnt (fsFn w) (fsD w) (fsA w))).bind checkWf
  | _ => none

/-- F3 forms of class 2 (04 R104). -/
def decodeVintF3 (w : Nat) : Option Instr :=
  match opF w with
  | 0x20 => (srcsF3 w).bind fun s => some (.vadd (dF w) s.1 s.2)
  | 0x21 => (srcsF3 w).bind fun s => some (.vsub (dF w) s.1 s.2)
  | 0x22 => (srcsF3 w).bind fun s => some (.vmul (dF w) s.1 s.2)
  | 0x24 => (srcsF3 w).bind fun s => some (.vdiv (dF w) s.1 s.2)
  | 0x25 => (srcsF3 w).bind fun s => some (.vlog (dF w) s.1 s.2)
  | 0x26 => (srcsF3 w).bind fun s => some (.vshf (dF w) s.1 s.2)
  | 0x2A => (srcF3A w).bind fun a => some (.vmov (dF w) a)
  | _ => none

/-- FX forms of class 2 (06 R168 to R176). -/
def decodeVintFx (w x : Nat) : Option Instr :=
  let plain := noC x && argF x == 0
  let ns := !satF x
  match opF w with
  | 0x20 => (srcsFx w x).bind fun s => (keepIf (plain && fnF x == 0) (.vaddFx (dF w) s.1 s.2 (tyF x) (satF x))).bind checkWf
  | 0x21 => (srcsFx w x).bind fun s => (keepIf (plain && fnF x == 0) (.vsubFx (dF w) s.1 s.2 (tyF x) (satF x))).bind checkWf
  | 0x22 => (srcsFx w x).bind fun s =>
      (keepIf (plain && fnF x < 2) (.vmulFx (bitAt x 20) (dF w) s.1 s.2 (tyF x) (satF x))).bind checkWf
  | 0x23 => (srcsFx w x).bind fun s => (srcC x).bind fun c =>
      (keepIf (argF x == 0 && fnF x < 2) (.vmad (bitAt x 20) (dF w) s.1 s.2 c (tyF x) (satF x))).bind checkWf
  | 0x24 => (srcsFx w x).bind fun s =>
      (keepIf (plain && ns && fnF x < 2) (.vdivFx (bitAt x 20) (dF w) s.1 s.2 (tyF x))).bind checkWf
  | 0x25 => (srcsFx w x).bind fun s =>
      (keepIf (plain && ns && fnF x < 8) (.vlogFx (fld x 20 3) (dF w) s.1 s.2 (tyF x))).bind checkWf
  | 0x26 => (srcsFx w x).bind fun s =>
      (keepIf (plain && ns && fnF x < 8) (.vshfFx (fld x 20 3) (dF w) s.1 s.2 (tyF x))).bind checkWf
  | 0x27 => (srcsFx w x).bind fun s =>
      (keepIf (plain && ns && fnF x < 2) (if bitAt x 20 then .vmax (dF w) s.1 s.2 (tyF x)
        else .vmin (dF w) s.1 s.2 (tyF x))).bind checkWf
  | 0x28 => (srcsFx w x).bind fun s =>
      (keepIf (plain && ns && fnF x < 8 && bitsOf w 21 4 == 0)
        (.vcmp (fld x 20 3) (fld w 18 3) s.1 s.2 (tyF x))).bind checkWf
  | 0x29 => (srcsFx w x).bind fun s =>
      (keepIf (plain && ns && (tyF x == 2 || tyF x == 3))
        (.vsel (fld x 20 3) (bitAt x 23) (bitAt x 24) (dF w) s.1 s.2 (tyF x == 3))).bind checkWf
  | 0x2A => keepIf (aF w == 0 && bF w == 0 && noHints w) (.vimm (dF w) (fld x 0 32))
  | 0x2B =>
    if fnF x < 2 then (srcFxA w x).bind fun a =>
      (keepIf (plain && ns) (.vcnt (bitAt x 20) (dF w) a (tyF x))).bind checkWf
    else if fnF x == 2 then (srcFxA w x).bind fun a =>
      (keepIf (noC x && ns && !bitAt x 11) (.vbfx (dF w) a (tyF x) (fld x 0 5) (fld x 5 6))).bind checkWf
    else if fnF x == 3 then (srcsFx w x).bind fun s =>
      (keepIf (noC x && ns && !bitAt x 11) (.vbfi (dF w) s.1 s.2 (tyF x) (fld x 0 5) (fld x 5 6))).bind checkWf
    else none
  | 0x2C => (srcsFx w x).bind fun s =>
      (keepIf (plain && ns && fnF x < 4) (.vshuf (fld x 20 2) (dF w) s.1 s.2 (tyF x))).bind checkWf
  | 0x2D => (keepIf (plain && ns && !saF x && !sbF x && fnF x < 4 && tyF x == 2 && bF w == 0 && noHints w &&
      !d6 w && bitsOf w 15 3 == 0) (.vvote (fld x 20 2) (dS w) (fld w 11 3) (bitAt w 14))).bind checkWf
  | 0x2E =>
    if fnF x < 8 then
      (keepIf (noC x && !saF x && !sbF x && bF w == 0 && !rbF w && argF x < 2)
        (.vscan (fld x 20 3) (dF w) (aF w) (raF w) (tyF x) (satF x) (bitAt x 0))).bind checkWf
    else if 16 ≤ fnF x && fnF x < 24 then
      (keepIf (noC x && !saF x && !sbF x && bF w == 0 && !rbF w && argF x == 0)
        (.vred (fld x 20 3) (dF w) (aF w) (raF w) (tyF x) (satF x))).bind checkWf
    else none
  | 0x2F => keepIf (dF w == 0 && noHints w && noC x && fnF x == 0 && ns && !saF x && !sbF x && tyF x == 2 &&
      argF x < 128) (.regrp (aF w) (bF w) (fld x 0 7))
  | _ => none

/-- F3 forms of class 3 (04 R104). -/
def decodeVfltF3 (w : Nat) : Option Instr :=
  match opF w with
  | 0x30 => (srcsF3 w).bind fun s => some (.vfadd (dF w) s.1 s.2)
  | 0x31 => (srcsF3 w).bind fun s => some (.vfmul (dF w) s.1 s.2)
  | 0x37 => (srcF3A w).bind fun a => some (.vrcp (dF w) a)
  | 0x38 => (srcF3A w).bind fun a => some (.vrsq (dF w) a)
  | 0x39 => (srcF3A w).bind fun a => some (.vexp2 (dF w) a)
  | 0x3A => (srcF3A w).bind fun a => some (.vlog2 (dF w) a)
  | _ => none

/-- FX forms of class 3 (06 R177 to R185). -/
def decodeVfltFx (w x : Nat) : Option Instr :=
  let ns := !satF x
  let rm : BitVec 3 := fld x 0 3
  let rnd := argF x < 8
  let f0 := fnF x == 0
  match opF w with
  | 0x30 => (srcsFx w x).bind fun s =>
      (keepIf (noC x && ns && rnd && fnF x < 2) (.vfaddFx (bitAt x 20) (dF w) s.1 s.2 (tyF x) rm)).bind checkWf
  | 0x31 => (srcsFx w x).bind fun s =>
      (keepIf (noC x && ns && rnd && f0) (.vfmulFx (dF w) s.1 s.2 (tyF x) rm)).bind checkWf
  | 0x32 => (srcsFx w x).bind fun s => (srcC x).bind fun c =>
      (keepIf (ns && rnd && fnF x < 2) (.vfma (bitAt x 20) (dF w) s.1 s.2 c (tyF x) rm)).bind checkWf
  | 0x33 => (srcsFx w x).bind fun s =>
      (keepIf (noC x && ns && argF x == 0 && fnF x < 2) (if bitAt x 20 then .vfmax (dF w) s.1 s.2 (tyF x)
        else .vfmin (dF w) s.1 s.2 (tyF x))).bind checkWf
  | 0x34 => (srcsFx w x).bind fun s =>
      (keepIf (noC x && ns && argF x == 0 && fnF x < 8 && bitsOf w 21 4 == 0)
        (.vfcmp (fld x 20 3) (fld w 18 3) s.1 s.2 (tyF x))).bind checkWf
  | 0x35 => (srcFxA w x).bind fun a =>
      (keepIf (noC x && ns && argF x == 0 && f0) (.vfcls (dF w) a (tyF x))).bind checkWf
  | 0x36 =>
    if bF w == 0 && !rbF w && modF w == 3 && !saF x && !sbF x && !scF x && argF x < 1024 && !c6 x &&
        (tyF x).toNat < 8 then
      let m : BitVec 3 := fld x 16 3
      let dst : BitVec 5 := fld x 0 5
      let src : BitVec 5 := fld x 5 5
      if f0 then checkWf (.vfcvt (dF w) (aF w) (raF w) dst src m (cS x) (satF x))
      else if fnF x == 1 then
        (keepIf (src == 10) (.vfcvtPack (dF w) (aF w) (raF w) dst m (cS x) (satF x))).bind checkWf
      else if fnF x == 2 then
        (keepIf (dst == 10 && cS x == 0) (.vfcvtUnpack (dF w) (aF w) (raF w) src m (satF x))).bind checkWf
      else none
    else none
  | 0x37 => (srcFxA w x).bind fun a => (keepIf (noC x && ns && rnd && f0) (.vrcpFx (dF w) a (tyF x) rm)).bind checkWf
  | 0x38 => (srcFxA w x).bind fun a => (keepIf (noC x && ns && rnd && f0) (.vrsqFx (dF w) a (tyF x) rm)).bind checkWf
  | 0x39 => (srcFxA w x).bind fun a => (keepIf (noC x && ns && rnd && f0) (.vexp2Fx (dF w) a (tyF x) rm)).bind checkWf
  | 0x3A => (srcFxA w x).bind fun a => (keepIf (noC x && ns && rnd && f0) (.vlog2Fx (dF w) a (tyF x) rm)).bind checkWf
  | 0x3B => (srcFxA w x).bind fun a =>
      (keepIf (!scF x && ns && rnd && f0) (.vsincos (dF w) (cF x) a (tyF x) rm)).bind checkWf
  | 0x3C => (srcsFx w x).bind fun s => (srcC x).bind fun c =>
      (keepIf (ns && rnd && f0) (.vdot (dF w) s.1 s.2 c (tyF x) rm)).bind checkWf
  | 0x3D => (srcsFx w x).bind fun s =>
      (keepIf (noC x && ns && rnd && f0) (.vscl (dF w) s.1 s.2 (tyF x) rm)).bind checkWf
  | _ => none

/-- Class 4 (07 R187 to R207). WADR and PREF take a register count as chapter 07 has it, which Table 4-13 does not list (log 106). -/
def decodeMemory (w x : Nat) : Option Instr :=
  let m := memOpnd w x
  let low7 := bitsOf x 0 7 == 0
  let cnt : BitVec 2 := fld x 20 2
  let swz : BitVec 2 := fld x 23 2
  if opF w == 0x47 then
    (keepIf (bitsOf w 23 2 == 0 && aF w == 0 && immF w == 0) (.fence (fld w 20 3) (fld w 18 2))).bind checkWf
  else if modF w != 3 then none
  else match opF w with
  | 0x40 => (slotReq x).bind fun sl =>
      (keepIf (low7 && fnF x < 4) (.ld (dF w) cnt m (cF x) (tyF x) sl)).bind checkWf
  | 0x41 => (slotOpt x).bind fun sl =>
      (keepIf (low7 && fnF x < 4) (.st (dF w) cnt m (cF x) (tyF x) sl)).bind checkWf
  | 0x42 => (slotReq x).bind fun sl =>
      (keepIf (low7 && fnF x < 4) (.ldb (dF w) cnt m (cF x) (tyF x) sl)).bind checkWf
  | 0x43 => (slotReq x).bind fun sl =>
      (keepIf low7 (.lds (dF w) cnt (bitAt x 22) swz m (cF x) (tyF x) sl)).bind checkWf
  | 0x44 => (slotOpt x).bind fun sl =>
      (keepIf low7 (.sts (dF w) cnt (bitAt x 22) swz m (cF x) (tyF x) sl)).bind checkWf
  | 0x45 => (slotOpt x).bind fun sl =>
      (keepIf (fnF x < 8) (.atom (fld x 20 3) (dF w) m (cF x) (tyF x) (fld x 5 2) (fld x 2 3) (bitAt x 1) (bitAt x 0) sl)).bind
        checkWf
  | 0x46 => (slotReq x).bind fun sl =>
      (keepIf (fnF x < 8 && bitsOf x 4 3 == 0)
        (.atoms (fld x 20 3) (dF w) m (cF x) (tyF x) (bitAt x 3) (fld x 1 2) (bitAt x 0) sl)).bind checkWf
  | 0x48 => (slotOpt x).bind fun sl =>
      (keepIf (fnF x < 4 && bitsOf x 1 6 == 0 && bitAt x 0 == sbeF x) (.wadr (dF w) cnt m (cF x) (tyF x) sl)).bind checkWf
  | 0x49 => (keepIf (low7 && fnF x < 4 && dF w == 0 && slotNone x) (.pref cnt m (cF x) (tyF x))).bind checkWf
  | _ => none

/-- Class 5 (07 R208 to R229). -/
def decodeAsync (w x : Nat) : Option Instr :=
  let fx := modF w == 3 && noHints w && scalars3 w && !c6 x
  let f0 := fnF x == 0
  let t0 := tyF x == 0
  let kind : BitVec 2 := fld x 0 2
  let swz : BitVec 2 := fld x 2 2
  match opF w with
  | 0x50 => keepIf (fx && f0 && t0 && dF w == 0 && slotNone x && argF x == 0) (.cpx (aS w) (bS w) (cS x))
  | 0x51 =>
    if f0 then (keepIf (fx && dF w == 0 && cF x == 0 && slotNone x && argF x == 0)
      (.cgatIdx (aS w) (bS w) (tyF x))).bind checkWf
    else (keepIf (fx && fnF x == 1 && t0 && slotNone x && argF x < 16)
      (.cgatRow (dS w) (aS w) (bS w) (cS x) kind swz)).bind checkWf
  | 0x52 => (keepIf (fx && f0 && t0 && slotNone x && argF x < 16)
      (.csct (dS w) (aS w) (bS w) (cS x) kind swz)).bind checkWf
  | 0x53 => (keepIf (fx && fnF x < 4 && cF x == 0 && slotNone x && argF x < 16)
      (.cred (fld x 20 2) (dS w) (aS w) (bS w) (tyF x) kind swz)).bind checkWf
  | 0x54 => (keepIf (!d6 w && !a6 w && bitsOf w 2 9 == 0) (.cseal (bitAt w 0) (bitAt w 1) (dS w) (aS w))).bind checkWf
  | 0x55 => keepIf (dF w == 0 && aF w == 0 && bitsOf w 8 3 == 0) (.cwait (fld w 0 8))
  | 0x56 => (slotOpt x).bind fun sl =>
      keepIf (fx && f0 && t0 && dF w == 0 && bF w == 0 && cF x == 0 && argF x == 0) (.turn (aS w) sl)
  | 0x57 =>
    if fx && f0 && t0 && slotNone x then
      if argF x == 0 then some (.lnopen (dS w) (aS w) (bS w) (cS x))
      else keepIf (argF x == 1 && aF w == 0 && bF w == 0 && cF x == 0) (.lnopenClose (dS w))
    else none
  | 0x58 =>
    if fx && f0 && t0 && slotNone x && dF w == 0 then
      if argF x == 0 then some (.pfoldFetch (aS w) (bS w) (cS x))
      else if argF x == 1 then keepIf (bF w == 0 && cF x == 0) (.pfoldInstall (aS w))
      else keepIf (argF x == 2) (.pfoldRelease (aS w) (bS w) (cS x))
    else none
  | 0x59 => keepIf (dF w == 0 && !a6 w && immF w == 0) (.foldx (aS w))
  | 0x5A => keepIf (dF w == 0 && !a6 w && immF w == 0) (.landarm (aS w))
  | _ => none

/-- Class 6 (09 Table 9-6). -/
def decodeMatrix (w x : Nat) : Option Instr :=
  let t : BitVec 4 := fld w 18 4
  let ta : BitVec 4 := fld w 11 4
  let tb : BitVec 4 := fld w 4 4
  let tc : BitVec 4 := fld x 25 4
  let f0 := fnF x == 0
  if opF w == 0x62 then
    (keepIf (tileWf (dF w) && aF w == 0 && bitsOf w 2 9 == 0) (.tzero t (fld w 0 2))).bind checkWf
  else if modF w != 3 || rbF w then none
  else match opF w with
  | 0x60 => (slotOpt x).bind fun sl =>
      (keepIf (!raF w && tileWf (dF w) && !a6 w && !b6 w && cF x == 0 && fnF x < 2 && bitsOf x 9 3 == 0)
        (.tld t (aS w) (bS w) (bitAt x 20) (tyF x) (fld x 0 7) (bitAt x 7) (bitAt x 8) sl)).bind checkWf
  | 0x61 => (slotOpt x).bind fun sl =>
      keepIf (!raF w && tileWf (dF w) && !a6 w && !b6 w && cF x == 0 && f0 && tyF x == 0 && bitsOf x 7 5 == 0)
        (.tst t (aS w) (bS w) (fld x 0 7) sl)
  | 0x63 => (slotOpt x).bind fun sl =>
      (keepIf (!raF w && tileWf (dF w) && tileWf (aF w) && bF w == 0 && cF x == 0 && f0)
        (.tcvt t ta (tyF x) (fld x 0 3) (fld x 3 8) (bitAt x 11) sl)).bind checkWf
  | 0x64 =>
    if f0 then (slotOpt x).bind fun sl =>
      (keepIf (tileWf (dF w) && !b6 w && cF x == 0 && bitsOf x 7 5 == 0)
        (.tmovVt t (aF w) (raF w) (bS w) (tyF x) (fld x 0 3) (bitAt x 3) (bitAt x 4) (bitAt x 5) (bitAt x 6) sl)).bind checkWf
    else (slotReq x).bind fun sl =>
      (keepIf (fnF x == 1 && !raF w && tileWf (aF w) && !b6 w && cF x == 0 && tyF x == 0 && bitsOf x 4 8 == 0)
        (.tmovTv (dF w) ta (bS w) (fld x 0 3) (bitAt x 3) sl)).bind checkWf
  | 0x65 => (slotOpt x).bind fun sl =>
      (keepIf (!raF w && tileWf (dF w) && tileWf (aF w) && tileWf (bF w) && tileWf (cF x) && f0 && tyF x == 0 &&
        argF x < 4) (.mma t ta tb tc (bitAt x 0) (bitAt x 1) sl)).bind checkWf
  | 0x66 => (slotOpt x).bind fun sl =>
      (keepIf (!raF w && tileWf (dF w) && tileWf (aF w) && tileWf (bF w) && tileWf (cF x) && f0 && tyF x == 0 &&
        argF x < 4) (.mmas t ta tb tc (bitAt x 0) (bitAt x 1) sl)).bind checkWf
  | _ => none

/-- Class 7 (07 Table 7-8). -/
def decodeSystem (w x : Nat) : Option Instr :=
  let fx := modF w == 3 && noHints w && tyF x == 0 && argF x == 0
  let f0 := fnF x == 0
  let f1 := fnF x == 1
  let bare := dF w == 0 && aF w == 0 && immF w == 0
  match opF w with
  | 0x70 => keepIf bare .nop
  | 0x71 => (keepIf (aF w == 0 && bitsOf w 4 7 == 0) (.sread (dF w) (fld w 0 4))).bind checkWf
  | 0x72 => keepIf (!d6 w && aF w == 0) (if immF w == 0x021 then .demnext (dS w) else .csrr (dS w) (immF w))
  | 0x73 => keepIf (dF w == 0 && !a6 w) (.csrw (aS w) (immF w))
  | 0x74 => keepIf (dF w == 0 && !a6 w) (.svreq (aS w) (immF w))
  | 0x75 =>
    if f0 then (slotOpt x).bind fun sl =>
      keepIf (fx && !d6 w && !a6 w && bF w == 0 && cF x == 0) (.mbxSend (dS w) (aS w) sl)
    else (slotReq x).bind fun sl =>
      keepIf (fx && f1 && !d6 w && aF w == 0 && bF w == 0 && !c6 x) (.mbxRecv (dS w) (cS x) sl)
  | 0x76 => keepIf (dF w == 0 && aF w == 0 && bitsOf w 4 7 == 0) (.xgrow (bitAt w 3) (fld w 0 3))
  | 0x77 => keepIf (dF w == 0 && aF w == 0 && bitsOf w 3 8 == 0) (.xdrop (fld w 0 3))
  | 0x78 => keepIf bare .seamj
  | 0x79 => keepIf bare .seamd
  | 0x7A => keepIf bare .tfence
  | 0x7C => (slotOpt x).bind fun sl =>
      if f0 then keepIf (fx && dF w == 0 && !a6 w && bF w == 0 && cF x == 0) (.pginvPage (aS w) sl)
      else keepIf (fx && f1 && dF w == 0 && aF w == 0 && bF w == 0 && cF x == 0) (.pginvCtx sl)
  | 0x7D =>
    if f0 then (slotReq x).bind fun sl =>
      keepIf (fx && !d6 w && !a6 w && bF w == 0 && cF x == 0) (.leaseopRd (dS w) (aS w) sl)
    else (slotOpt x).bind fun sl =>
      keepIf (fx && f1 && dF w == 0 && !a6 w && !b6 w && cF x == 0) (.leaseopWr (aS w) (bS w) sl)
  | 0x7E => keepIf bare .halt
  | _ => none

/-- The instruction whose first word is w and, when it is two words long, whose second word is x; none is
ILLEGAL_ENCODING (04 R116). -/
def decodeInstr (w x : Nat) : Option Instr :=
  match opF w / 16 with
  | 0 => decodeControl w x
  | 1 => decodeScalar w x
  | 2 => if modF w == 3 then decodeVintFx w x else decodeVintF3 w
  | 3 => if modF w == 3 then decodeVfltFx w x else decodeVfltF3 w
  | 4 => decodeMemory w x
  | 5 => decodeAsync w x
  | 6 => decodeMatrix w x
  | _ => decodeSystem w x

/-- Decoding of stored bytes: the instruction and the bytes after it (00 R5: words are little-endian). -/
def decodeBytes (bs : List Byte) : Option (Instr × List Byte) :=
  let w := leNat (bs.take 4)
  let n := 4 * instrLen w
  if bs.length < n then none
  else (decodeInstr w (leNat ((bs.drop 4).take 4))).map fun i => (i, bs.drop n)

/-- The instruction whose bits, numbered as the opcode table numbers them, are w; the bits above nbits are zero. -/
def decodeTableWord (nbits w : Nat) : Option Instr :=
  (decodeBytes (leBytes 8 (w % 2 ^ nbits))).map (·.1)

/-! ### The encoder -/

/-- An F3 word (04 Table 4-3). -/
def f3Word (op d a b mod : Nat) (ra rb : Bool) : Nat :=
  packFields [(rb.toNat, 1), (ra.toNat, 1), (mod, 2), (b, 7), (a, 7), (d, 7), (op, 7)]

/-- An FI word (04 Table 4-4). -/
def fiWord (op d a imm : Nat) : Nat := packFields [(imm, 11), (a, 7), (d, 7), (op, 7)]

/-- An FS word (04 Table 4-8), by its bits 12:0 in two fields. -/
def fsWord (op d a fn : Nat) (i : Bool) (k : Nat) : Nat :=
  packFields [(k, 9), (fn, 3), (i.toNat, 1), (a, 6), (d, 6), (op, 7)]

/-- An FS word with a second operand. -/
def fsOp (op d a fn : Nat) : SOpnd → Nat
  | .reg b => fsWord op d a fn false (8 * b.toNat)
  | .imm k => fsWord op d a fn true k.toNat

/-- An extension word (04 Table 4-5). -/
def extWord (c fn ty imm16 : Nat) : Nat := packFields [(imm16, 16), (ty, 4), (fn, 5), (c, 7)]

def VSrc.num : VSrc → Nat
  | .vec r _ => r.toNat
  | .scl r => r.toNat

def VSrc.hint : VSrc → Bool
  | .vec _ u => u
  | .scl _ => false

def VSrc.isScl : VSrc → Bool
  | .vec _ _ => false
  | .scl _ => true

def CSrc.num : CSrc → Nat
  | .vec r => r.toNat
  | .scl r => r.toNat

def CSrc.isScl : CSrc → Bool
  | .vec _ => false
  | .scl _ => true

/-- The F3 form of a class 2 or 3 instruction. -/
def encF3 (op : Nat) (d : VReg) (a b : VSrc) : List Nat :=
  [f3Word op d.toNat a.num b.num (if a.isScl then 2 else if b.isScl then 1 else 0) a.hint b.hint]

/-- The FX form of a class 2 or 3 instruction without C. -/
def encFx (op d : Nat) (a b : VSrc) (fn ty : Nat) (sat : Bool) (arg : Nat) : List Nat :=
  [f3Word op d a.num b.num 3 a.hint b.hint,
   extWord 0 fn ty (packFields [(arg, 12), (sat.toNat, 1), (0, 1), (b.isScl.toNat, 1), (a.isScl.toNat, 1)])]

/-- The FX form of a class 2 or 3 instruction with C. -/
def encFxC (op d : Nat) (a b : VSrc) (c : CSrc) (fn ty : Nat) (sat : Bool) (arg : Nat) : List Nat :=
  [f3Word op d a.num b.num 3 a.hint b.hint,
   extWord c.num fn ty (packFields [(arg, 12), (sat.toNat, 1), (c.isScl.toNat, 1), (b.isScl.toNat, 1), (a.isScl.toNat, 1)])]

/-- The zero source field. -/
def noSrc : VSrc := .vec 0 false

/-- IMM16 of classes 4 to 6 and MBX (04 Table 4-6). -/
def slotImm (s : Slot) (arg : Nat) : Nat :=
  match s with
  | none => packFields [(arg, 12), (0, 3), (0, 1)]
  | some k => packFields [(arg, 12), (k.toNat, 3), (1, 1)]

/-- ARG of a memory operand, with its low 7 bits (07 Table 7-2). -/
def memArg (m : MemOpnd) (low : Nat) : Nat :=
  packFields [(low, 7), (m.iu.toNat, 1), (m.sc.toNat, 2), (m.ix.toNat, 1), (m.vb.toNat, 1)]

/-- A class 4 FX instruction. -/
def encMem (op : Nat) (d : VReg) (m : MemOpnd) (c : VReg) (fn : Nat) (ty : BitVec 4) (s : Slot) (low : Nat) : List Nat :=
  [f3Word op d.toNat m.a.toNat m.b.toNat 3 m.ra m.rb, extWord c.toNat fn ty.toNat (slotImm s (memArg m low))]

/-- An FX instruction of classes 5 to 7 with no hint. -/
def encSlot (op d a b c fn ty : Nat) (s : Slot) (arg : Nat) : List Nat :=
  [f3Word op d a b 3 false false, extWord c fn ty (slotImm s arg)]

/-- Unary F3 word of class 3 and VMOV. -/
def encF3A (op : Nat) (d : VReg) (a : VSrc) : List Nat := encF3 op d a noSrc

/-- FN of a count, seam and swizzle field of LDS and STS. -/
def ldsFn (cnt : BitVec 2) (seam : Bool) (swz : BitVec 2) : Nat :=
  packFields [(cnt.toNat, 2), (seam.toNat, 1), (swz.toNat, 2)]

/-- ARG of kind and swizzle (07 R218). -/
def kindArg (kind swz : BitVec 2) : Nat := packFields [(kind.toNat, 2), (swz.toNat, 2)]

/-- The words of a VX instruction; an event has none (04 Tables 4-3 to 4-8, 4-12, 4-13). -/
def encode : Instr → List Nat
  | .bra off => [packFields [(off.toNat, 25), (0x00, 7)]]
  | .brc p n off => [packFields [(off.toNat, 21), (n.toNat, 1), (p.toNat, 3), (0x01, 7)]]
  | .brv p n all off => [packFields [(off.toNat, 20), (all.toNat, 1), (n.toNat, 1), (p.toNat, 3), (0x02, 7)]]
  | .call link off => [packFields [(off.toNat, 18), (link.toNat, 7), (0x03, 7)]]
  | .ret a ra => [f3Word 0x04 0 a.toNat 0 0 ra false]
  | .jmpi a ra => [f3Word 0x05 0 a.toNat 0 0 ra false]
  | .exit p n => [fiWord 0x06 (p.toNat + 8 * n.toNat) 0 0]
  | .rcw q bound => [f3Word 0x07 q.toNat 0 0 3 false false, extWord 0 0 0 bound.toNat]
  | .barg b => [fiWord 0x08 b.toNat 0 0]
  | .bara b => [fiWord 0x09 b.toNat 0 0]
  | .wany m => [fiWord 0x0A 0 0 m.toNat]
  | .ebind d a b => [f3Word 0x0B d.toNat a.toNat b.toNat 0 false false]
  | .emask op m d => [fiWord 0x0C d.toNat 0 (m.toNat + 256 * op.toNat)]
  | .eclr rd d a => [fiWord 0x0D d.toNat a.toNat rd.toNat]
  | .yield => [fiWord 0x0E 0 0 0]
  | .sadd f d a b => [fsOp 0x10 d.toNat a.toNat f.toNat b]
  | .ssub f d a b => [fsOp 0x11 d.toNat a.toNat f.toNat b]
  | .smul f d a b => [fsOp 0x12 d.toNat a.toNat f.toNat b]
  | .smad high ty d a b c => [f3Word 0x13 d.toNat a.toNat b.toNat 3 false false, extWord c.toNat high.toNat ty.toNat 0]
  | .sdiv f d a b => [fsOp 0x14 d.toNat a.toNat f.toNat b]
  | .slog f d a b => [fsOp 0x15 d.toNat a.toNat f.toNat b]
  | .sshf f d a b => [fsOp 0x16 d.toNat a.toNat f.toNat b]
  | .smin u d a b => [fsOp 0x17 d.toNat a.toNat (2 * u.toNat) b]
  | .smax u d a b => [fsOp 0x17 d.toNat a.toNat (1 + 2 * u.toNat) b]
  | .scmp f u q a b => [fsOp 0x18 (q.toNat + 4 * u.toNat) a.toNat f.toNat b]
  | .sjmp f d a imm => [fsWord 0x19 d.toNat a.toNat f.toNat false 0, imm.toNat]
  | .smov d b => [fsOp 0x1A d.toNat 0 0 b]
  | .ssel q d a b => [fsOp 0x1A d.toNat a.toNat (4 + q.toNat) b]
  | .simm d imm => [fsWord 0x1B d.toNat 0 0 false 0, imm.toNat]
  | .sld d a w slot k => [fsWord 0x1C d.toNat a.toNat slot.toNat w k.toNat]
  | .sst d a w k => [fsWord 0x1D d.toNat a.toNat 0 w k.toNat]
  | .srdl d a ra => [f3Word 0x1E d.toNat a.toNat 0 0 ra false]
  | .scnt f d a => [fsWord 0x1F d.toNat a.toNat f.toNat false 0]
  | .vadd d a b => encF3 0x20 d a b
  | .vaddFx d a b ty sat => encFx 0x20 d.toNat a b 0 ty.toNat sat 0
  | .vsub d a b => encF3 0x21 d a b
  | .vsubFx d a b ty sat => encFx 0x21 d.toNat a b 0 ty.toNat sat 0
  | .vmul d a b => encF3 0x22 d a b
  | .vmulFx high d a b ty sat => encFx 0x22 d.toNat a b high.toNat ty.toNat sat 0
  | .vmad high d a b c ty sat => encFxC 0x23 d.toNat a b c high.toNat ty.toNat sat 0
  | .vdiv d a b => encF3 0x24 d a b
  | .vdivFx rem d a b ty => encFx 0x24 d.toNat a b rem.toNat ty.toNat false 0
  | .vlog d a b => encF3 0x25 d a b
  | .vlogFx f d a b ty => encFx 0x25 d.toNat a b f.toNat ty.toNat false 0
  | .vshf d a b => encF3 0x26 d a b
  | .vshfFx f d a b ty => encFx 0x26 d.toNat a b f.toNat ty.toNat false 0
  | .vmin d a b ty => encFx 0x27 d.toNat a b 0 ty.toNat false 0
  | .vmax d a b ty => encFx 0x27 d.toNat a b 1 ty.toNat false 0
  | .vcmp f p a b ty => encFx 0x28 p.toNat a b f.toNat ty.toNat false 0
  | .vsel p n z d a b wide => encFx 0x29 d.toNat a b (p.toNat + 8 * n.toNat + 16 * z.toNat) (2 + wide.toNat) false 0
  | .vmov d a => encF3A 0x2A d a
  | .vimm d imm => [f3Word 0x2A d.toNat 0 0 3 false false, imm.toNat]
  | .vcnt lz d a ty => encFx 0x2B d.toNat a noSrc lz.toNat ty.toNat false 0
  | .vbfx d a ty pos len => encFx 0x2B d.toNat a noSrc 2 ty.toNat false (pos.toNat + 32 * len.toNat)
  | .vbfi d a b ty pos len => encFx 0x2B d.toNat a b 3 ty.toNat false (pos.toNat + 32 * len.toNat)
  | .vshuf f d a b ty => encFx 0x2C d.toNat a b f.toNat ty.toNat false 0
  | .vvote f d p n => [f3Word 0x2D d.toNat (p.toNat + 8 * n.toNat) 0 3 false false, extWord 0 f.toNat 2 0]
  | .vscan op d a ra ty sat excl => encFx 0x2E d.toNat (.vec a ra) noSrc op.toNat ty.toNat sat excl.toNat
  | .vred op d a ra ty sat => encFx 0x2E d.toNat (.vec a ra) noSrc (16 + op.toNat) ty.toNat sat 0
  | .regrp a b m => [f3Word 0x2F 0 a.toNat b.toNat 3 false false, extWord 0 0 2 m.toNat]
  | .vfadd d a b => encF3 0x30 d a b
  | .vfaddFx sub d a b ty rm => encFx 0x30 d.toNat a b sub.toNat ty.toNat false rm.toNat
  | .vfmul d a b => encF3 0x31 d a b
  | .vfmulFx d a b ty rm => encFx 0x31 d.toNat a b 0 ty.toNat false rm.toNat
  | .vfma sub d a b c ty rm => encFxC 0x32 d.toNat a b c sub.toNat ty.toNat false rm.toNat
  | .vfmin d a b ty => encFx 0x33 d.toNat a b 0 ty.toNat false 0
  | .vfmax d a b ty => encFx 0x33 d.toNat a b 1 ty.toNat false 0
  | .vfcmp f p a b ty => encFx 0x34 p.toNat a b f.toNat ty.toNat false 0
  | .vfcls d a ty => encFx 0x35 d.toNat a noSrc 0 ty.toNat false 0
  | .vfcvt d a ra dst src rm seed sat =>
    encFxC 0x36 d.toNat (.vec a ra) noSrc (.vec (seed.zeroExtend 7)) 0 rm.toNat sat (dst.toNat + 32 * src.toNat)
  | .vfcvtPack d a ra dst rm seed sat =>
    encFxC 0x36 d.toNat (.vec a ra) noSrc (.vec (seed.zeroExtend 7)) 1 rm.toNat sat (dst.toNat + 32 * 10)
  | .vfcvtUnpack d a ra src rm sat => encFx 0x36 d.toNat (.vec a ra) noSrc 2 rm.toNat sat (10 + 32 * src.toNat)
  | .vrcp d a => encF3A 0x37 d a
  | .vrcpFx d a ty rm => encFx 0x37 d.toNat a noSrc 0 ty.toNat false rm.toNat
  | .vrsq d a => encF3A 0x38 d a
  | .vrsqFx d a ty rm => encFx 0x38 d.toNat a noSrc 0 ty.toNat false rm.toNat
  | .vexp2 d a => encF3A 0x39 d a
  | .vexp2Fx d a ty rm => encFx 0x39 d.toNat a noSrc 0 ty.toNat false rm.toNat
  | .vlog2 d a => encF3A 0x3A d a
  | .vlog2Fx d a ty rm => encFx 0x3A d.toNat a noSrc 0 ty.toNat false rm.toNat
  | .vsincos d c a ty rm => encFxC 0x3B d.toNat a noSrc (.vec c) 0 ty.toNat false rm.toNat
  | .vdot d a b c ty rm => encFxC 0x3C d.toNat a b c 0 ty.toNat false rm.toNat
  | .vscl d a b ty rm => encFx 0x3D d.toNat a b 0 ty.toNat false rm.toNat
  | .ld d cnt m off ty slot => encMem 0x40 d m off cnt.toNat ty (some slot) 0
  | .st d cnt m off ty slot => encMem 0x41 d m off cnt.toNat ty slot 0
  | .ldb d cnt m off ty slot => encMem 0x42 d m off cnt.toNat ty (some slot) 0
  | .lds d cnt seam swz m off ty slot => encMem 0x43 d m off (ldsFn cnt seam swz) ty (some slot) 0
  | .sts d cnt seam swz m off ty slot => encMem 0x44 d m off (ldsFn cnt seam swz) ty slot 0
  | .atom f d m c ty ord scope noret sd slot =>
    encMem 0x45 d m c f.toNat ty slot (packFields [(sd.toNat, 1), (noret.toNat, 1), (scope.toNat, 3), (ord.toNat, 2)])
  | .atoms f d m c ty sd swz seam slot =>
    encMem 0x46 d m c f.toNat ty (some slot) (packFields [(seam.toNat, 1), (swz.toNat, 2), (sd.toNat, 1)])
  | .fence scope kind => [fiWord 0x47 (kind.toNat + 4 * scope.toNat) 0 0]
  | .wadr d cnt m off ty probe => encMem 0x48 d m off cnt.toNat ty probe probe.isSome.toNat
  | .pref cnt m off ty => encMem 0x49 0 m off cnt.toNat ty none 0
  | .cpx a b c => encSlot 0x50 0 a.toNat b.toNat c.toNat 0 0 none 0
  | .cgatIdx a b ty => encSlot 0x51 0 a.toNat b.toNat 0 0 ty.toNat none 0
  | .cgatRow d a b c kind swz => encSlot 0x51 d.toNat a.toNat b.toNat c.toNat 1 0 none (kindArg kind swz)
  | .csct d a b c kind swz => encSlot 0x52 d.toNat a.toNat b.toNat c.toNat 0 0 none (kindArg kind swz)
  | .cred f d a b ty kind swz => encSlot 0x53 d.toNat a.toNat b.toNat 0 f.toNat ty.toNat none (kindArg kind swz)
  | .cseal cw add d a => [fiWord 0x54 d.toNat a.toNat (cw.toNat + 2 * add.toNat)]
  | .cwait n => [fiWord 0x55 0 0 n.toNat]
  | .turn a slot => encSlot 0x56 0 a.toNat 0 0 0 0 slot 0
  | .lnopen d a b c => encSlot 0x57 d.toNat a.toNat b.toNat c.toNat 0 0 none 0
  | .lnopenClose d => encSlot 0x57 d.toNat 0 0 0 0 0 none 1
  | .pfoldFetch a b c => encSlot 0x58 0 a.toNat b.toNat c.toNat 0 0 none 0
  | .pfoldInstall a => encSlot 0x58 0 a.toNat 0 0 0 0 none 1
  | .pfoldRelease a b c => encSlot 0x58 0 a.toNat b.toNat c.toNat 0 0 none 2
  | .foldx a => [fiWord 0x59 0 a.toNat 0]
  | .landarm a => [fiWord 0x5A 0 a.toNat 0]
  | .tld t a b darned ty rows sp acc slot =>
    encSlot 0x60 t.toNat a.toNat b.toNat 0 darned.toNat ty.toNat slot (packFields [(rows.toNat, 7), (sp.toNat, 1), (acc.toNat, 1)])
  | .tst t a b rows slot => encSlot 0x61 t.toNat a.toNat b.toNat 0 0 0 slot rows.toNat
  | .tzero t k => [fiWord 0x62 t.toNat 0 k.toNat]
  | .tcvt d a ty rm c0 sat slot =>
    encSlot 0x63 d.toNat a.toNat 0 0 0 ty.toNat slot (packFields [(rm.toNat, 3), (c0.toNat, 8), (sat.toNat, 1)])
  | .tmovVt t a ra b ty n hem sp acc form slot =>
    [f3Word 0x64 t.toNat a.toNat b.toNat 3 ra false,
     extWord 0 0 ty.toNat (slotImm slot (packFields [(n.toNat, 3), (hem.toNat, 1), (sp.toNat, 1), (acc.toNat, 1), (form.toNat, 1)]))]
  | .tmovTv d t b n hem slot => encSlot 0x64 d.toNat t.toNat b.toNat 0 1 0 (some slot) (packFields [(n.toNat, 3), (hem.toNat, 1)])
  | .mma d a b c hi zc slot => encSlot 0x65 d.toNat a.toNat b.toNat c.toNat 0 0 slot (hi.toNat + 2 * zc.toNat)
  | .mmas d a b c hi zc slot => encSlot 0x66 d.toNat a.toNat b.toNat c.toNat 0 0 slot (hi.toNat + 2 * zc.toNat)
  | .nop => [fiWord 0x70 0 0 0]
  | .sread d sel => [fiWord 0x71 d.toNat 0 sel.toNat]
  | .csrr d c => [fiWord 0x72 d.toNat 0 c.toNat]
  | .csrw a c => [fiWord 0x73 0 a.toNat c.toNat]
  | .svreq a n => [fiWord 0x74 0 a.toNat n.toNat]
  | .mbxSend d a slot => encSlot 0x75 d.toNat a.toNat 0 0 0 0 slot 0
  | .mbxRecv d c slot => encSlot 0x75 d.toNat 0 0 c.toNat 1 0 (some slot) 0
  | .xgrow nb k => [fiWord 0x76 0 0 (k.toNat + 8 * nb.toNat)]
  | .xdrop k => [fiWord 0x77 0 0 k.toNat]
  | .seamj => [fiWord 0x78 0 0 0]
  | .seamd => [fiWord 0x79 0 0 0]
  | .tfence => [fiWord 0x7A 0 0 0]
  | .pginvPage a slot => encSlot 0x7C 0 a.toNat 0 0 0 0 slot 0
  | .pginvCtx slot => encSlot 0x7C 0 0 0 0 1 0 slot 0
  | .leaseopRd d a slot => encSlot 0x7D d.toNat a.toNat 0 0 0 0 (some slot) 0
  | .leaseopWr a b slot => encSlot 0x7D 0 a.toNat b.toNat 0 1 0 slot 0
  | .halt => [fiWord 0x7E 0 0 0]
  | .demnext d => [fiWord 0x72 d.toNat 0 0x021]
  | _ => []

end Sys2Proof
end

