-- ==== Sys2Proof/Config.lean ====
section
/-! DEFINITION. What the device fixes: counts of units (01 R10, R11), sizes, constant register values, and the
cryptographic functions, which the model leaves uninterpreted (assumption log 10). -/

namespace Sys2Proof.Config

/-- Cores of the package (01 Table 1-1). -/
def cores : Nat := 256
/-- Clusters of the package (01 Table 1-1). -/
def clusters : Nat := 64
/-- Leases in the lease table (01 R17). -/
def leases : Nat := 32768
/-- Extents of the reserve lease at indices 0 to 2,047 (03 R61). -/
def reserveLeases : Nat := 2048
/-- Records of a demand queue (03 R76). -/
def demandEntries : Nat := 1024
/-- Slots of a core's mailbox (01; 07 R236). -/
def mailboxSlots : Nat := 16
/-- Records of a core's trap buffer (15 R380). -/
def trapBuffer : Nat := 64
/-- Lane-blocks of a quad that serve warps (02 R40). -/
def laneBlocks : Nat := 3584
/-- Scratchpad bytes of a core (01). -/
def scratchBytes : Nat := 0x80000
/-- Incomplete asynchronous operations of a warp (07 R208). -/
def maxAsync : Nat := 256
/-- Unfinished batches of a warp (07 R209). -/
def maxBatches : Nat := 64
/-- Index buffers of a warp (07 R217). -/
def indexBuffers : Nat := 4
/-- Entries of a group's matrix queue (09 R274). -/
def matrixQueue : Nat := 32
/-- Highest count of a scoreboard slot (04 R99). -/
def slotMax : Nat := 63
/-- Open linings of a context (07 R223). -/
def maxLinings : Nat := 64
/-- Forward entries of the device (11 R338 Table 11-17). -/
def forwards : Nat := 256
/-- Entries of the host port's write buffer (11 R327). -/
def hostBuffer : Nat := 1024
/-- Requests outstanding on one plane (11 R331 Table 11-6). -/
def planeTags : Nat := 4096
/-- Cycles a stuck group must have been stuck (15 R390). -/
def stuckCycles : Nat := 65536
/-- Cycles without a completion of a pool request, and of one that carries a publication (16 R404). -/
def poolCycles : Nat := 120000
def publishCycles : Nat := 12000000
/-- Cycles without an answer of a Kagon request, and those for which its tag is withheld then (17 R422). -/
def kagonCycles : Nat := 2 ^ 21
def tagCycles : Nat := 2 ^ 22
/-- Cycles of a rendezvous without all answers (10 R305). -/
def rendezvousCycles : Nat := 1048576
/-- ACAP on shipped parts (07 R234). -/
def acap : Word := 0x000000FF
/-- The reset plane map (11 R334 Table 11-8). -/
def planeMap : DWord := 0xFEDCBA9876543210

/-- DEVID with FORM bit 6 set on a module carrier (01 R20 Table 1-6). -/
def devid (module : Bool) : Word := if module then 0x4B7D4C44 else 0x4B7D4C04

/-- SM3_256, which the manual names and does not define (11 R349, R350): uninterpreted (log 10). -/
opaque sm3 : List Byte → BitVec 256

/-- CRC-32 and FEC check bytes of a Kagon flit, for which the manual gives no code (11 R330, R331; log 93). -/
opaque crc32 : List Byte → Word
opaque fec : List Byte → BitVec 96

/-- SM4-XTS under a key and a tweak, which the manual names and does not define (11 R346; log 95): a sector as it leaves, and what
reading one under another key than it was written with gives. -/
opaque sm4xts : BitVec 256 → List Byte → List Byte → List Byte
opaque misread : BitVec 256 → BitVec 256 → List Byte → List Byte → List Byte

/-- The SM2 signature of the fused identity key over some bytes (11 R349; log 10). -/
opaque identitySign : List Byte → List Byte

/-- The device certificate chain of certificate slot 0, fused at manufacture (11 R349; log 10). -/
opaque deviceChain : List Byte

/-- The stack of a 64 KiB frame, which the manual leaves to the device (03 R72): a free value (log 34). -/
opaque frameStack : Nat → BitVec 4

/-- The LLC slice of a carve sector, by a hash that the manual does not give (03 R73): a free value (log 34). -/
opaque carveSlice : Nat → Byte

/-- Bytes whose value the manual does not state, one for each number that the model counts up (log 35). -/
opaque freeByte : Nat → Byte

/-- Boot ROM, as the bytes that are measured (11 R350): the manual does not give them (log 10). -/
opaque bootRom : List Byte

/-- Length of a partition's supervisor code in its measurement, which the manual does not give (11 R350; log 10). -/
opaque supervisorLength : Nat → Nat

end Sys2Proof.Config
end

