-- ==== Sys2Proof/Machine/State.lean ====
section
/-! DEFINITION. The state of the device as plain data: warps, groups, grids, cores, mending cores, memory, requests in
flight, scheduler, seams, Kagon, host port, landing port and management; the reset state; faults and refusals.
Sparse collections are association lists in ascending key order (log 1). -/

namespace Sys2Proof.Machine

/-- A finite map: keys strictly ascending. -/
abbrev KV (α : Type) := List (Nat × α)

/-- Home bytes: an unlisted address reads as 0, and no entry holds 0 (log 2). -/
abbrev Memory := List Host.Cell

/-- A register file: an unlisted register reads as 0, and no entry holds 0. -/
abbrev Regs := List (Nat × Word)

/-- Lane masks by number: an unlisted one is empty. -/
abbrev Masks := List (Nat × Lanes)

/-! ### Places -/

/-- Which pages an L1 sector belongs to (08 R248; 07 Table 7-4). -/
inductive L1Kind where
  | loc | pressed | peer | host
  deriving DecidableEq, Repr

/-- Where a byte lives (08 R245). -/
inductive Place where
  | loc (a : Nat) (kind : L1Kind)
  | carve (a : Nat)
  | peer (n a : Nat) (carve : Bool) (cached : Bool)
  | host (a : Nat) (cached : Bool)
  | scr (gk a swz : Nat)
  | seam (peer id a swz : Nat)
  | sram (m a : Nat)
  deriving DecidableEq, Repr

/-! ### Warps -/

/-- A warp's place within its current clause (04 R98; 10 R314). Offsets are code offsets (04 R94). -/
structure ClausePos where
  hdr  : Nat
  next : Nat
  stop : Nat
  nexth : Nat                     -- the next header position (04 R95)
  cls  : Nat
  act  : Lanes
  sw   : Bool
  here : Lanes                    -- lanes that met the clause: the active ones and those its predicate excluded
  deriving DecidableEq, Repr

/-- The open bounded reconvergence wait (02 R32, R33). -/
structure OpenRcw where
  addr  : Nat
  q     : Nat
  bound : Nat
  base  : Nat
  since : Nat
  lanes : Lanes
  deriving DecidableEq, Repr

/-- What a trap record says of the instruction: code offset and words (15 R379). -/
structure Insn where
  pc   : Nat
  word : Nat
  ext  : Nat
  hdr  : Nat := 0                 -- offset of its clause header
  deriving DecidableEq, Repr

/-- What a warp is parked in (02 R56; 10 R314). -/
inductive Park where
  | none
  | barg (b : Nat)
  | rcw
  | regrp (m a b pc : Nat) (insn : Insn)
  | xgrow (k : Nat)
  | wany (m : Byte) (act : Lanes) (base since : Nat) (insn : Insn)
  deriving DecidableEq, Repr

/-- A demand record that is wanted or posted: reason, kind and virtual address (03 R76 Table 3-8). -/
structure Wish where
  reason : Nat
  kind   : Nat
  va     : Nat
  deriving DecidableEq, Repr

/-- An instruction held at issue on demand events: unanswered tags (core × 1,024 + tag), the wishes that no queue entry
was free for, and what a decline needs to trap precisely (03 R77; 04 R436). -/
structure Hold where
  tags : List Nat
  want : List Wish
  insn : Insn
  va   : Nat
  deriving DecidableEq, Repr

/-- An index buffer: the index step that fills it, its type, count, and its indices once read (07 R217). -/
structure IBuf where
  op   : Nat
  ty   : Nat
  n    : Nat
  vals : List DWord
  full : Bool
  own  : Bool                     -- read by this warp, and not by a donor of REGRP
  deriving DecidableEq, Repr

/-- The completion word of a sealed batch (07 R210). -/
structure ComplWord where
  addr : Nat
  val  : DWord
  add  : Bool
  insn : Insn
  deriving DecidableEq, Repr

/-- A sealed, unfinished batch (07 R209), with the completion word that is still to be written. -/
structure Batch where
  seq  : Nat
  cw   : Option ComplWord
  deriving DecidableEq, Repr

/-- Host-homed stores of a warp: address of the latest, whether some is not accepted, the flush read sent (11 R327). -/
structure HostStores where
  last  : Option Nat
  unacc : Bool
  rd    : Option Nat
  deriving DecidableEq, Repr

/-- A resident warp. Its key is core × 128 + slot × 8 + packing position (02 R24, R38). -/
structure Warp where
  gk     : Nat
  ix     : Nat
  width  : Nat
  x      : Nat
  live   : Lanes
  pcs    : Regs
  v      : Regs
  s      : Regs
  p      : Masks
  q      : BitVec 4
  eb     : List (Nat × DWord)
  pend   : Word
  emask  : Word
  sb     : KV Nat
  aflags : Word
  aenab  : Word
  clause : Option ClausePos
  swWait : Bool
  rcw    : Option OpenRcw
  park   : Park
  xpend  : Nat
  latch  : Option Word
  ibufs  : List IBuf
  batch  : Nat
  sealed : List Batch
  yield  : Bool
  joined : Bool
  merged : List Nat               -- addresses where lanes met by falling through (02 R30)
  ctxsel : Word
  handler : Bool
  hold   : Option Hold
  hst    : HostStores
  lines  : List (Place × List Byte) := []   -- lines of code that came from other homes, latest first (04 R101)
  won    : Option (Nat × Nat) := none       -- of a parked WANY: the binding that has won and its value, while its handler is checked (04 R436)
  deriving DecidableEq, Repr

/-! ### Groups and grids -/

/-- A tile register: tag, issue-order tag, data and hem (09 R263 to R265, R274). -/
structure Tile where
  tag  : Byte
  itag : Byte
  data : Memory
  hem  : Memory
  deriving DecidableEq, Repr

/-- What a matrix queue entry does (09 Table 9-6), with the operands it read at issue. -/
inductive MWork where
  | tld (t : Nat) (darned : Bool) (ty rows : Nat) (sp acc : Bool)
  | tst (t rows : Nat)
  | tzero (t : Nat) (k : Nat)
  | tcvt (d a ty rm c0 : Nat) (sat : Bool)
  | tmovVt (t : Nat) (ty : Nat) (hem sp acc form : Bool) (words : List (Nat × Word))
  | tmovTv (t : Nat) (hem : Bool) (dst : List (Nat × Nat × Nat))   -- register, lane, word
  | mma (d a b c : Nat) (hi zc : Bool)
  deriving DecidableEq, Repr

/-- A matrix queue entry: warp, words, slot, the pipe it runs on, and the operation of its memory requests (09 R274). -/
structure MEnt where
  id   : Nat
  wk   : Nat
  insn : Insn
  work : MWork
  slot : Option Nat
  pipe : Option Nat
  op   : Option Nat
  deriving DecidableEq, Repr

/-- A named barrier: generation count and arrival mask over warp indices (02 R37). -/
structure Bar where
  gen : Word
  arr : BitVec 256
  deriving DecidableEq, Repr

/-- Pre-emption decisions (10 R309). -/
inductive Decision where
  | drain | flush | save
  deriving DecidableEq, Repr

/-- Life of a group (02 R48; 10 R305, R310, R311). -/
inductive GPhase where
  | reserved (f : Option Nat)  -- room is held for a seam member; f is its frame when it was saved
  | commit (f : Option Nat) -- resident, waits for GO of its seam; f is its frame when it was saved
  | run
  | stopping (d : Decision)
  | stopped (d : Decision)  -- seam member that has answered STOPPED
  | saving (f : Nat)
  | held
  | saved (f : Nat)
  | gone
  deriving DecidableEq, Repr

/-- A group that has started. Its key is grid × 2^24 + group index. -/
structure Group where
  phase  : GPhase
  cores  : List Nat
  slots  : List Nat               -- core × 16 + slot
  wks    : KV Nat                 -- warp index to warp key, while resident
  scr    : Memory
  bars   : KV Bar
  tiles  : KV Tile
  mq     : List MEnt
  pub    : Bool                   -- published by an act other than TURN
  pubT   : Bool                   -- performed a TURN step
  w      : Nat
  since  : List (Nat × Nat)       -- core, cycle count at the start of this residency
  p      : Int
  admitNo  : Nat                    -- admission order
  retired : BitVec 256
  joins  : BitVec 256
  dets   : BitVec 256
  hostMark : Bool
  stuck  : Option Nat
  snap   : KV Warp                -- of a group being saved or saved: what a frame does not hold (log 32)
  deriving DecidableEq, Repr

/-- The kernel descriptor of a grid (10 R295). -/
structure KDesc where
  code    : Nat
  est     : Nat
  width   : Nat
  regx    : Nat
  warps   : Nat
  scratch : Nat
  pair    : Bool
  idem    : Bool
  tile    : Bool
  seam    : Bool
  members : Nat
  deriving DecidableEq, Repr

/-- The seam record of a grid (10 R304). -/
structure SeamRec where
  id      : Nat
  members : Nat
  mbase   : Nat
  peers   : List Nat
  deriving DecidableEq, Repr

/-- An installed fold: counter, step pointer, record (03 R82 to R84). -/
structure Fold where
  count : Nat
  k     : Nat
  bits  : Nat                     -- the 512 bits of Table 3-11
  deriving DecidableEq, Repr

/-- An open lining (07 R222): its record's address is the key in the context. -/
structure Lining where
  home  : Nat
  carve : Bool
  front : Nat
  back  : Nat
  npages : Nat
  side  : Bool
  turns : Word
  pressed : Bool
  group : Nat
  deriving DecidableEq, Repr

/-- A waiting group of a grid: index, and the frame when it was saved, with its held-exit mark (10 R296, R310, R311). -/
structure Waiting where
  ix    : Nat
  frame : Option Nat
  held  : Bool
  deriving DecidableEq, Repr

/-- A grid and its context (10 R292 to R296, R303, R308). -/
structure Grid where
  q      : Nat
  pslot  : Nat
  tag    : Word
  par    : Bool
  crec   : Bool
  cen    : Bool
  cidx   : Nat
  part   : Nat
  ptroot : DWord
  foldbase : DWord
  savevec : Word
  args   : DWord
  data   : DWord
  csa    : Nat
  nframe : Nat
  frames : List Nat               -- frames in use
  desc   : KDesc
  seam   : Option SeamRec
  ngroups : Nat
  nextg  : Nat                    -- lowest group that has not started
  waits  : List Waiting           -- pre-empted groups, ascending index
  fin    : Nat
  cycles : Int
  avg    : Option Int
  folds  : KV Fold
  linings : KV Lining
  killed : Option Nat
  order  : Nat
  used   : KV Nat := []           -- group index: core-cycles of residencies before its last flush (10 R309)
  deriving DecidableEq, Repr

/-! ### Cores and mending cores -/

/-- A valid L1 sector: its 32 bytes, kind, the mark of back-invalidation (03 R85), and the context and sector of the front
region through which it was filled (08 R260). -/
structure L1Sec where
  bytes  : List Byte
  kind   : L1Kind
  marked : Bool
  front  : Option (Nat × Nat) := none
  deriving DecidableEq, Repr

/-- A mailbox message: sender's status word, receiver position (slot × 8 + pos), 16 words (07 R236, R237). -/
structure Msg where
  status : Word
  tgt     : Nat
  words  : List Word
  deriving DecidableEq, Repr

/-- A message on its way: the place its sender had, the sender as a warp of its group, core it goes to, slot it names (07 R236,
R238). -/
structure Send where
  from_ : Nat
  gk    : Nat
  ix    : Nat
  core  : Nat
  msg   : Msg
  slot  : Option Nat
  deriving DecidableEq, Repr

/-- A pending XGROW request (02 R40): quad, warp, blocks, non-blocking. -/
structure XReq where
  quad : Nat
  wk   : Nat
  k    : Nat
  nb   : Bool
  deriving DecidableEq, Repr

/-- A core: cycle count, L1, acquire epoch, mailbox, messages for saved warps, trap buffer, quad arbiters. -/
structure Core where
  cycles : Nat
  l1     : KV L1Sec
  epoch  : Nat
  mbox   : List Msg
  saved  : List (Nat × Nat × Msg)  -- group key, warp index, message (02 R55)
  traps  : List (List Word)        -- records waiting (15 R380)
  drops  : Nat
  ptrs   : KV Nat                  -- quad: slot granted last, 0 to 3 within the quad (log 3)
  oot    : Bool                    -- supervisor window taken out of turn (02 R27)
  xq     : List XReq
  got    : KV Nat := []            -- L1 sector: operation number when an answer from another device or the host last came for it
  deriving DecidableEq, Repr

/-- A posted, unanswered demand record of a mending core (03 R76, R77; 07 R235). -/
structure DemRec where
  ctx  : Nat
  page : Nat
  reason : Nat
  kind : Nat
  va   : Nat
  ret  : Bool
  seq  : Nat
  deriving DecidableEq, Repr

/-- A migration hold: page, operations with requests that arrived before it, requests of peers held in arrival order,
drained (11 R338). -/
structure MigHold where
  page  : Nat
  early : List Nat
  flits : List (Nat × Flit)
  held  : Bool
  deriving DecidableEq, Repr

/-- A lease request sent: tag, lease index (11 R340). -/
structure LeaseReq where
  tag   : Nat
  lease : Nat
  deriving DecidableEq, Repr

/-- A mending core (01 R13; 04 R118; 07 R193, R194, R232). -/
structure Mend where
  s      : Regs
  q      : BitVec 4
  aflags : Word
  aenab  : Word
  pc     : Nat
  clause : Option ClausePos
  resume : Option Nat             -- instruction at which the clause at pc is entered again (15 R381)
  code   : Memory
  sram   : Memory
  halted : Bool
  trapped : Bool
  cause  : Byte
  mcpc   : Word
  cycles : Nat
  latch  : Option Word
  ctxsel : Word
  dem    : KV DemRec
  dseq   : Nat
  migtgt : DWord
  mig    : Option MigHold
  full   : Bool
  linPos : Nat                     -- next inbound lease slot (11 R340)
  finPos : Nat                     -- next inbound firmware slot (11 R337)
  frPos  : Nat                     -- next memory-fault slot (16 R397)
  frDrops : Nat
  frWait : List (List Byte)        -- entries of KIND 4, 5, 7 that wait
  fwWait : List FwMsg              -- firmware messages that wait for a slot
  fwQ    : List Nat := []          -- outbound firmware slots that wait, in the order in which they were sent (11 R337)
  lmWait : List (Nat × LeaseMsg)   -- lease messages that wait for a slot, with their codes
  lreqs  : List LeaseReq
  hst    : HostStores
  deriving DecidableEq, Repr

/-! ### Memory -/

/-- A lease record (03 R78 Table 3-9) as its 128 bits, and how the lease last ended (16 R398). For what falls in one cycle
of its owner (03 R80): one more than the owner's count when it last ended and when it was last granted, and whether a grant
has come in the cycle of its expiry, after which it does not expire until it is written. -/
structure Lease where
  bits : BitVec 128
  last : BitVec 3
  ended : Nat := 0
  granted : Nat := 0
  tied : Bool := false
  deriving DecidableEq, Repr

/-- State of a 4 KiB sector of the page cache and LLC (03 R72; 16 R406, R408). -/
structure Sector where
  valid : Bool
  dirty : Bool
  lost  : Bool
  deriving DecidableEq, Repr

/-- State of a 64 KiB frame: first to be evicted, the stack it was moved to (03 R84; 16 R413). -/
structure Frame where
  evict  : Bool
  stack  : Option Nat
  deriving DecidableEq, Repr

/-- What a pool-port request does (11 R339; 07 R226). -/
inductive PoolWork where
  | fill (sector : Nat)
  | wb (sector : Nat) (data : List Byte)
  | publish (op page : Nat)
  deriving DecidableEq, Repr

/-- A pool-port request outstanding. -/
structure PoolReq where
  port : Nat
  addr : Nat                      -- pool address
  work : PoolWork
  tries : Nat
  out  : Bool := true             -- sent, and not kept for want of a port in service
  key  : BitVec 256 := 0          -- key of its sector when it was made (11 R346)
  after : Option Nat := none      -- the write-back of the same sector that it follows (16 R406)
  since : Nat := 0                -- count of its port's die at its transmission (16 R404)
  deriving DecidableEq, Repr

/-- A pool port (16 R404). -/
structure PoolPort where
  up  : Bool
  deriving DecidableEq, Repr

/-- A cached translation: context, page address and size bit, leaf (03 R68). -/
structure TlbEnt where
  ctx  : Nat
  va   : Nat
  big  : Bool
  leaf : DWord
  deriving DecidableEq, Repr

/-- A forward entry: page here, peer, page there (11 R338). -/
structure Forward where
  page : Nat
  peer : Nat
  topg : Nat
  deriving DecidableEq, Repr

/-- A demand record of reason 2 that waits for an entry of its queue: mending core, context, source fields, wish. -/
structure Note where
  mend : Nat
  ctx  : Nat
  grid : Nat
  core : Nat
  src  : Nat
  part : Nat
  wish : Wish
  deriving DecidableEq, Repr

/-- A warp or mending core that waits at issue for the fill of a table's or a line of code's sector: the sector, its instruction, the address
and access kind of what it asks for (16 R405). -/
structure Stall where
  sec  : Nat
  insn : Insn
  va   : Nat
  kind : Nat
  deriving DecidableEq, Repr

/-- The memory system below the cores. -/
structure MemSys where
  bytes  : Memory                 -- local physical bytes at home, of valid sectors
  pool   : Memory                 -- pool bytes at node × 2^62 + extent × 2^30 + offset, as they read under the key they were written with
  seals  : KV (BitVec 256) := []  -- that key, by pool address / 4,096, of sectors that this device wrote (11 R346)
  carve  : Memory
  carveOwn : KV Nat               -- carve page: the partition whose contexts use it (17 R428)
  secs   : KV Sector
  frames : KV Frame
  pver   : KV Nat                 -- versions of pressed pages
  counts : KV Nat                 -- page-access counters (03 R70), by virtual page and context
  tlb    : List TlbEnt
  leases : KV Lease
  dir    : KV DirRec
  preqs  : KV PoolReq
  pports : KV PoolPort
  fwds   : List Forward
  farEnts : KV Nat               -- table entries of pages under a forward, as their new homes answered (11 R338)
  hostLines : List Nat            -- twice the 128-byte line held by the host, plus 1 once recalled (08 R257)
  lostCarve : List Nat            -- lost carve sectors (16 R408)
  heldAt : List (Nat × Nat)       -- operation, lost sector at which it waits
  errs   : KV Nat                 -- stack: corrected errors (16 R410)
  lostN  : KV Nat                 -- stack: lost sectors recorded
  stalled : KV Stall := []        -- agents that wait at issue for a fill, warps and then mending cores (16 R405)
  lossAt : KV Nat := []           -- four times a pool node plus a mending core: one more than its count at the node's loss (03 R80)
  dirAt  : KV Nat := []           -- four times a lease plus a mending core: the same of a change of its DSTATE (03 R80)
  notes  : List Note := []        -- demand records that hold no request and wait for a queue entry (03 R71, R77)
  deriving DecidableEq, Repr

/-! ### Requests in flight -/

/-- Who issued a request (03 R76). -/
inductive Who where
  | warp (wk : Nat)
  | mend (m : Nat)
  | queue (q : Nat)
  | landing (w : Nat)
  | host (n : Nat)               -- a host-window access (11 R324)
  | fold                         -- the prefetch engine (03 R84)
  | orphan                       -- its context was killed (15 R383)
  deriving DecidableEq, Repr

/-- One element: a lane's access of at most 8 bytes at one instant (08 R246). -/
structure Elem where
  lane : Nat
  va   : Nat
  n    : Nat
  place : Option Place           -- none until translated
  data : DWord
  swap : DWord
  reg  : Nat
  got  : Option DWord
  done : Bool
  sent : Bool                    -- a request for it is outstanding at a peer or the host
  deriving DecidableEq, Repr

/-- What an access in flight is (chapter 07). -/
inductive Acc where
  | load (l1 : Bool) (ty : Nat) (vec : Bool)       -- LD, LDB, LDS, SLD
  | store                                          -- ST, STS, SST, queue WRITE, landing payload
  | atom (fn ty : Nat) (noret vec : Bool) (acq scope : Nat)
  | probe
  | pref
  | pginv (ctx : Nat) (span : Option (Nat × Nat))  -- the bytes whose requests it waits for; none for all
  | tile (wr : Bool) (row : Nat)                   -- rows of a TST, or of a TLD with its row-progress value (09 R282)
  | recRd                                          -- the 64 bytes that CPX and PFOLD read at issue (07 R213, R227)
  | leaseRd (l : Nat)
  | leaseWr
  | fetch (va : Nat)                               -- the line of code that holds an address (04 R101)
  | foldPages (fetch : Bool) (prio : Nat)          -- the fetch or release of a fold's pages, with its PRIO (03 R84)
  | foldStep (f : Nat)                             -- a step of a fold's schedule table (03 R84)
  | walkRd (a : Nat)                               -- a table entry of a page under a forward (11 R338)
  deriving DecidableEq, Repr

/-- Side of a copy: virtual, scratchpad or seam window (07 R214). -/
inductive Side where
  | dv | scr (swz : Nat) | seam (swz : Nat)
  deriving DecidableEq, Repr

/-- Asynchronous work (07 R208), with the operands read at issue. -/
inductive AWork where
  | cpx (rec disp : Nat) (c : List Int)
  | idx (addr n ty : Nat)
  | row (dst src r stride n ty : Nat) (kind : Side) (buf : Nat)
  | csct (dst src r stride n ty : Nat) (kind : Side) (buf : Nat)
  | cred (dst src n ty fn : Nat) (kind : Side)
  | lnopen
  | turn (rec : Nat) (step : Bool) (front back npages : Nat)
  | copy (dst src len : Nat)
  | word (addr : Nat) (val : DWord) (add : Bool)   -- the completion word of a batch (07 R210)
  deriving DecidableEq, Repr

/-- A k of an asynchronous operation that is under way: its source bytes once they are read (07 R219; 08 R258). -/
structure AUnit where
  k   : Nat
  got : Option (List Byte)
  deriving DecidableEq, Repr

/-- What an operation does. An asynchronous one has moved every k below k, and those of ahead; us are under way. Of its
elements reg is the k, lane is 1 for a write and swap is 1 once its request is counted. -/
inductive OpKind where
  | acc (a : Acc)
  | async (w : AWork) (k : Nat) (ahead : List Nat) (us : List AUnit) (engine batch : Nat)
  deriving DecidableEq, Repr

/-- A failed request of an instruction: its cause, DETAIL, and the lanes and addresses that met it (15 R378). -/
structure FailedReq where
  cause  : Nat
  detail : Nat
  els    : List (Nat × Nat)
  deriving DecidableEq, Repr

/-- An operation in flight. Keys ascend in issue order. -/
structure Op where
  who   : Who
  ctx   : Nat
  gk    : Nat
  insn  : Insn
  kind  : OpKind
  lanes : Lanes
  slot  : Option Nat
  elems : List Elem
  hold  : List Nat               -- unanswered demand events: core × 1,024 + tag
  want  : List Wish              -- records waiting for a queue entry
  epoch : Nat                    -- acquire epoch of the core at issue (08 R249)
  fails : List FailedReq := []   -- requests declined or refused while others are unanswered (15 R378)
  seam  : Bool := false          -- an access to the seam window (07 R240)
  core  : Option Nat := none     -- of an operation whose warp is gone: the core whose L1 its stores keep (08 R247)
  deriving DecidableEq, Repr

/-! ### Scheduler -/

/-- A queue's control record (10 R290) and the model's notes of its parser (10 R293, R301). -/
structure Queue where
  en     : Bool
  prio   : BitVec 2
  part   : BitVec 3
  rdidx  : BitVec 12
  par    : Bool
  state  : BitVec 2
  quantum : BitVec 16
  err    : Byte
  ptroot : DWord
  deficit : DWord
  open_  : List (Nat × Nat)      -- packets taken and not complete: slot, operation or grid
  passed : Nat
  deriving DecidableEq, Repr

/-- A packet of type WRITE, COUNT or COPY that is parsed and not complete, by its slot (10 R293). -/
structure Packet where
  q     : Nat
  slot  : Nat
  tag   : Word
  par   : Bool
  crec  : Bool
  cen   : Bool
  cidx  : Nat
  op    : Option Nat
  status : Nat
  deriving DecidableEq, Repr

/-- A partition record (11 R347 Table 11-12). -/
structure Part where
  engines : BitVec 128
  clusters : DWord
  hapbase : BitVec 19
  kshare : Byte
  pshare : Byte
  ways   : BitVec 16
  hbm    : BitVec 11
  svcode : BitVec 50
  svroot : DWord
  err    : Byte
  key    : Bool
  state  : BitVec 2
  seq    : Word                  -- next trap-record SEQ (15 R379)
  stopped : Bool                 -- stopped by a checkpoint (10 R319)
  deriving DecidableEq, Repr

/-- A pointer and fresh flag of one level of one partition (10 R303); key part × 4 + level. -/
structure Level where
  ptr   : Nat
  fresh : Bool
  deriving DecidableEq, Repr

/-- Room that pre-emption frees for a waiting group of a queue and holds for it (10 R308): the cores and slots, and the
groups that leave them. -/
structure Room where
  q     : Nat
  gk    : Nat
  cores : List Nat
  slots : List Nat
  going : List Nat
  deriving DecidableEq, Repr

/-- Phase of a seam as its leader knows it (10 R305, R307); done once every member is detached. -/
inductive SPhase where
  | idle | reserving | committing | resident | stopping
  deriving DecidableEq, Repr

/-- A seam (02 R45 to R48; 10 R304 to R307; 15 R389). Key: SEAMID. -/
structure Seam where
  members : Nat
  peers   : List Nat
  locals  : List (Nat × Nat)     -- member index, group key
  phase   : SPhase
  answers : List Nat
  fails   : Nat
  start   : Nat
  retry   : Nat
  dets    : BitVec 16
  gones   : BitVec 16
  told    : BitVec 16            -- members whose detach has been recorded or reported
  revoke  : Bool                 -- a kill has taken a reservation of this device: REVOKE is due (17 R429)
  going   : Bool                 -- COMMIT has arrived and a member of this device is not resident yet (10 R305)
  decs    : Word
  lastBusy : Nat
  done    : Bool                 -- every member is detached, and the devices have been told (02 R47)
  seen    : BitVec 16            -- codes of messages acted on, of which the same is not due again (17 R420)
  deriving DecidableEq, Repr

/-! ### Kagon -/

/-- A request sent on a plane and unanswered: slice, flit, operation and elements it serves, and the count of the issuing die
at its send (11 R331; 17 R422). -/
structure KReq where
  slice : Nat
  flit  : Flit
  op    : Option Nat
  elems : List Nat
  back  : Option (Nat × Flit)    -- a forwarded request: port and flit to answer (11 R338)
  die   : Nat := 0
  since : Nat := 0
  deriving DecidableEq, Repr

/-- A Kagon port (17 R416 to R420). -/
structure KPort where
  up      : Bool
  h       : List Byte
  retired : Byte
  recal   : Byte
  ages    : List Nat              -- milliseconds since a lane was last recalibrated, up to 1,001
  replay  : Byte
  cur     : Byte                  -- flits replayed in this millisecond
  discard : Byte
  crc     : KV Nat := []         -- CRC failures in succession of the flit of a link sequence number (17 R416)
  tx      : BitVec 11 := 0       -- link sequence number of the next flit sent (11 R330)
  rx      : BitVec 11 := 0       -- that of the next flit to be passed on
  early   : KV Instr := []       -- flits received before one that is replayed, by link sequence number (11 R330)
  deriving DecidableEq, Repr

/-- Plane map, range tables, requests and ports. -/
structure Fabric where
  map    : DWord
  rv     : BitVec 16
  busy   : Bool
  slice  : BitVec 4
  plane  : BitVec 4
  range  : List (Nat × BitVec 128)
  reqs   : KV KReq               -- plane × 4,096 + tag
  held   : List KReq             -- held at the source, in order (11 R334)
  msgs   : List (Nat × KReq) := [] -- scheduler messages that a loss of their plane sends again: plane, message (17 R420)
  burnt  : KV (Nat × Nat)        -- tags withheld: plane × 4,096 + tag; the die, and its count until which (17 R422)
  inHeld : List (Nat × Flit × Nat) -- arrived requests that are held: port, flit, what they wait for
  ports  : KV KPort
  lnkBusy : Option (Nat × Nat × Nat) -- port, lane, operation of LNKCTL
  deriving DecidableEq, Repr

/-! ### Host port, landing port -/

/-- A host-window record (11 R324). -/
structure HostWin where
  ptroot : DWord
  en     : Bool
  part   : BitVec 3
  vbase  : BitVec 27
  deriving DecidableEq, Repr

/-- A read or AtomicOp outstanding at the host (11 R326): the elements it serves, its address and bytes. -/
structure HostReq where
  op    : Nat
  elems : List Nat
  n     : Nat
  warp  : Option Who             -- a flush read for this issuer's fence (11 R327)
  addr  : Nat
  deriving DecidableEq, Repr

/-- An entry of the host port's write buffer (11 R327): the 64 bytes at an aligned address, the bytes of them that are
stored, and the elements that they come from. -/
structure HostWr where
  addr  : Nat
  data  : List Byte
  mask  : BitVec 64
  who   : Who
  gk    : Nat
  op    : Nat
  elems : List Nat
  deriving DecidableEq, Repr

/-- A store that left the write buffer and is not accepted at the host: number, issuer, group, address, operation and
elements (11 R327). -/
structure HostLoose where
  num   : Nat
  who   : Who
  gk    : Nat
  addr  : Nat
  op    : Nat
  elems : List Nat
  deriving DecidableEq, Repr

/-- The host port. -/
structure HostPort where
  up   : Bool
  buf  : List HostWr
  reqs : KV HostReq
  wins : KV HostWin
  loss : Word
  log  : List (Nat × DWord)
  loose : List HostLoose
  deriving DecidableEq, Repr

/-- A landing window (03 R91; 07 R229; 17 R427). -/
structure LandWin where
  count  : Word
  marker : Word
  mask   : BitVec 16
  reqid  : BitVec 16
  en     : Bool
  base   : BitVec 41
  pages  : BitVec 16
  ctx    : Option Nat
  fault  : Bool
  deriving DecidableEq, Repr

/-- A landing write accepted and not yet applied (03 R92, R93): its operation, requester, window, marker, poison. -/
structure LandWr where
  op   : Nat
  req  : BitVec 16
  win  : Nat
  mark : Bool
  deriving DecidableEq, Repr

/-- The landing port. -/
structure Landing where
  wins : KV LandWin
  wrs  : List LandWr
  err  : Word
  flt  : DWord
  deriving DecidableEq, Repr

/-! ### Checkpoints, and the scheduler as a whole -/

/-- A checkpoint image in flash (10 R319 step 4): the selected partitions, their grids and saved groups, queue control
records, window slots and count words, partition records and keys, landing windows, lease records, and the bytes of the
reserve-lease sectors and of the frames, by local physical address. -/
structure Image where
  parts  : Byte
  grids  : KV Grid
  groups : KV Group
  seams  : KV Seam
  queues : KV Queue
  win    : Memory
  counts : List (Nat × DWord)
  precs  : KV Part
  keys   : KV (BitVec 256)
  lwins  : KV LandWin
  leases : KV Lease
  secs   : List Nat
  bytes  : Memory
  deriving DecidableEq, Repr

/-- Checkpoint control word, the partitions of the checkpoint in progress, and the image (10 R318, R319). -/
structure Ckpt where
  status : Byte
  parts  : Byte
  run    : Byte
  cont   : Bool
  image  : Option Image
  deriving DecidableEq, Repr

/-- The scheduler and the command window. -/
structure Sched where
  queues : KV Queue
  packets : List Packet
  parts  : KV Part
  levels : KV Level
  rooms  : List Room
  win    : Memory                -- queue regions and completion rings, by command-window offset
  counts : List (Nat × DWord)    -- count words
  ckpt   : Ckpt
  nextGrid : Nat
  admits : Nat
  deriving DecidableEq, Repr

/-! ### Clusters, boot, management -/

/-- A cluster's matrix unit: which queue entry each pipe runs (09 R276), and the round-robin pointer of each pipe. -/
structure Cluster where
  pipes : KV (Nat × Nat)         -- pipe: group key, entry id
  rr    : KV Nat
  fenced : Bool
  deriving DecidableEq, Repr

/-- An operation of CLCTL in progress (17 R431). -/
structure ClOp where
  cluster : Nat
  emerg   : Bool
  deriving DecidableEq, Repr

/-- A firmware update in progress (17 R432): its core, its image, and whether the core stopped before this step. -/
structure FwUpdate where
  core    : Nat
  img     : FwImg
  stopped : Bool
  deriving DecidableEq, Repr

/-- Boot, monitors and management registers (chapters 12, 16, 17). -/
structure Mgmt where
  asserted : Bool                -- package reset asserted
  stage   : Byte
  fail    : Byte
  resumed : Bool
  resume  : Bool
  resumestat : Word
  waiting : Bool                 -- a stage waits for a retry or an image
  peernum : BitVec 14
  hostacap : BitVec 6
  ldirbase : DWord
  carrier : Option BootFacts     -- what the last reset release met
  card    : Option Card          -- the carrier's identity record, when its MAGIC and DIGEST hold (12 R354)
  untrained : Bool := false      -- stage LINKS, entered by WRREG: its links have not trained yet
  fuseClusters : DWord           -- bit c: the fuses disable cluster c; stacks and planes likewise
  fuseStacks : BitVec 16
  fusePlanes : BitVec 16
  rollback : Nat
  running : Option FwImg
  bootedB : Bool
  slotA   : Option FwImg
  slotB   : Option FwImg
  tdie    : KV Word
  thbm    : KV Word
  vcore   : KV Word
  fcore   : KV Word
  pmon    : KV Word
  pmod    : Word
  tthr    : BitVec 16
  tcrit   : BitVec 16
  hthr    : BitVec 16
  hcrit   : BitVec 16
  hotCl   : KV Nat               -- samples in succession above TCRIT
  hotSt   : KV Nat
  badV    : KV Nat
  goodV   : KV Nat
  heldDie : List Nat
  fencedStacks : BitVec 16
  fenceBusy : Option Nat
  fenceWait : List Nat           -- fences of the device's own that wait for one in progress
  clop    : Option ClOp
  clWait  : List Nat := []        -- clusters whose emergency fence waits for one in progress (17 R430)
  mfErr   : Byte
  mfBusy  : Option FwUpdate := none
  flash   : KV Memory := []      -- bytes that FWIMAGE wrote: of slot A, of slot B, and of the image that stage FWLOAD receives
  session : Bool
  certs   : KV (List Byte)
  keys    : KV (BitVec 256)
  meas    : KV (BitVec 256)
  fromImage : List Nat           -- saved groups that a resume brought and that are not restored yet (16 R414)
  resumeQ : List Nat := []       -- partitions that stage RESUME has still to restore (12 R359)
  deriving DecidableEq, Repr

/-! ### The model's own control -/

/-- What leaves the device or answers a command. -/
inductive Out where
  | flit (port : Nat) (f : Flit)
  | lease (core port : Nat) (bytes : List Byte)
  | hostRead (id addr n : Nat)
  | hostAtomic (id addr fn ty : Nat) (data swap : DWord)
  | hostWrite (addr : Nat) (data : List Byte) (mask : BitVec 64)
  | hostFlush (id addr : Nat)
  | windowData (data : List Byte)
  | hostRecall (line : Nat)
  | poolRead (id port addr : Nat)
  | poolWrite (id port addr : Nat) (data : List Byte)
  | poolPublish (id port addr : Nat)
  | birsp (page : Nat)
  | mgmt (value : List Byte)
  | mgmtError
  | unsupported (req : BitVec 16)
  | advisory (req : BitVec 16)
  | replayRequest (port : Nat) (seq : BitVec 11)
  deriving DecidableEq, Repr

/-- An agent that issues instructions. -/
inductive Agent where
  | warp (wk : Nat)
  | mend (m : Nat)
  deriving DecidableEq, Repr

/-- What a record says beside its warp. -/
structure TrapInfo where
  cause  : Nat
  origin : Nat
  detail : Nat
  aux    : Nat
  lanes  : Lanes
  va     : Nat
  insn   : Insn
  deriving DecidableEq, Repr

/-- A boundary of a quad's windows whose grant is not settled: the slot whose ready warps are to issue, whether it is taken out
of turn, and the slots that come after it (02 R26, R27). -/
structure Grant where
  core : Nat
  quad : Nat
  slot : Nat
  oot  : Bool
  rest : List (Nat × Bool)
  deriving DecidableEq, Repr

/-- The model's own fields (log 1): the issue list of the window in progress, the agenda of events to come, the
choices of what the manual leaves open, messages to itself, what has left the device, operation numbers. -/
structure Ctl where
  cur     : Option Agent
  insn    : Insn
  issue   : List Agent
  agenda  : List Instr
  selfq   : List Instr
  choices : List Nat
  out     : List Out
  nextOp  : Nat
  free    : Nat
  grant   : Option Grant := none
  traps   : Option (List (Nat × TrapInfo)) := none  -- traps of the event in progress, when several warps may trap (15 R384)
  deriving DecidableEq, Repr

/-- The state of the device. -/
structure State where
  warps  : KV Warp
  groups : KV Group
  grids  : KV Grid
  cores  : KV Core
  mends  : KV Mend
  mem    : MemSys
  ops    : KV Op
  sends  : List Send
  sched  : Sched
  seams  : KV Seam
  fab    : Fabric
  host   : HostPort
  land   : Landing
  clus   : KV Cluster
  mgmt   : Mgmt
  ctl    : Ctl
  deriving DecidableEq, Repr

/-- Why the machine stops. -/
inductive Fault where
  /-- Raised by exec of an instruction when no resident warp or mending core is the one issuing (log 21). Safe: no
  such execution exists on the device. -/
  | noIssuer
  deriving DecidableEq, Repr

/-- Why an instruction has no meaning. -/
inductive Refusal where
  /-- Raised by the arm of an instruction that the model does not give a meaning to. Safe. -/
  | notModelled (mnemonic : String)
  deriving DecidableEq, Repr

/-! ### Reset -/

/-- A core after reset: cycle count 0 (02 R42), nothing cached, each quad's pointer at its last slot (log 3). -/
def Core.reset : Core :=
  { cycles := 0, l1 := [], epoch := 0, mbox := [], saved := [], traps := [], drops := 0,
    ptrs := [(0, 3), (1, 3), (2, 3), (3, 3)], oot := false, xq := [] }

/-- Host stores of an issuer: none. -/
def HostStores.none : HostStores := { last := .none, unacc := false, rd := .none }

/-- Private SRAM after reset: zeros (log 2), but for TAG of each memory-fault slot (16 Table 16-1). -/
def sramReset : Memory := (List.range 512).map fun i => (0xA000 + 32 * (i / 2) + i % 2, 0xFF)

/-- A mending core after reset: halted until stage LEASE starts the firmware (12 R355; log 4); CSRs by 07 Table 7-9,
11 Tables 11-15 to 11-17, 15 Table 15-3. -/
def Mend.reset : Mend :=
  { s := [], q := 0, aflags := 0, aenab := 0, pc := 0, clause := none, resume := none, code := [], sram := sramReset, halted := true,
    trapped := false, cause := 0, mcpc := 0, cycles := 0, latch := none, ctxsel := 0, dem := [], dseq := 0,
    migtgt := 0, mig := none, full := false, linPos := 0, finPos := 0, frPos := 0, frDrops := 0, frWait := [],
    fwWait := [], lmWait := [], lreqs := [], hst := HostStores.none }

/-- Queue control record after reset (10 Table 10-2). -/
def Queue.reset : Queue :=
  { en := false, prio := 0, part := 0, rdidx := 0, par := true, state := 0, quantum := 0, err := 0, ptroot := 0,
    deficit := 0, open_ := [], passed := 0 }

/-- Partition record after reset (11 Table 11-12). -/
def Part.reset : Part :=
  { engines := 0, clusters := 0, hapbase := 0, kshare := 0, pshare := 0, ways := 0, hbm := 0, svcode := 0,
    svroot := 0, err := 0, key := false, state := 0, seq := 0, stopped := false }

/-- Landing-window descriptor after reset (03 Table 3-15). -/
def LandWin.reset : LandWin :=
  { count := 0, marker := 0, mask := 0, reqid := 0, en := false, base := 0, pages := 0, ctx := none, fault := false }

/-- Host-window record after reset (11 Table 11-4). -/
def HostWin.reset : HostWin := { ptroot := 0, en := false, part := 0, vbase := 0 }

/-- Kagon port after reset: down, health scores 0 (17 Table 17-1, R417). -/
def KPort.reset : KPort :=
  { up := false, h := List.replicate 8 0, retired := 0, recal := 0, ages := List.replicate 8 1001, replay := 0, cur := 0,
    discard := 0 }

/-- A cluster after reset. -/
def Cluster.reset : Cluster := { pipes := [], rr := [], fenced := false }

/-- Lease record after reset (03 Table 3-9). -/
def Lease.reset : Lease := { bits := 0, last := 0 }

/-- A partition level after reset (10 R303): pointer 0, fresh (log 3). -/
def Level.reset : Level := { ptr := 0, fresh := true }

/-- The memory system after reset: nothing held, pool ports out of service (untrained). -/
def MemSys.reset : MemSys :=
  { bytes := [], pool := [], carve := [], carveOwn := [], secs := [], frames := [], pver := [], counts := [], tlb := [], leases := [],
    dir := [], preqs := [], pports := [], fwds := [], farEnts := [], hostLines := [], lostCarve := [], heldAt := [], errs := [],
    lostN := [] }

/-- The scheduler after reset. Grid ids start at 1 (log 3). -/
def Sched.reset : Sched :=
  { queues := [], packets := [], parts := [], levels := [], rooms := [], win := [], counts := [],
    ckpt := { status := 0, parts := 0, run := 0, cont := false, image := none }, nextGrid := 1, admits := 0 }

/-- Kagon after reset (11 Tables 11-8, 11-9). -/
def Fabric.reset : Fabric :=
  { map := Config.planeMap, rv := 0, busy := false, slice := 0, plane := 0, range := [], reqs := [], held := [],
    burnt := [], inHeld := [], ports := [], lnkBusy := none }

/-- Boot and management after reset (12 Table 12-4; 16 Table 16-5; 17 Tables 17-5 to 17-7). -/
def Mgmt.reset : Mgmt :=
  { asserted := true, stage := 1, fail := 0, resumed := false, resume := false, resumestat := 0, waiting := false, card := none,
    peernum := 0, hostacap := 0, ldirbase := 0, carrier := none, fuseClusters := 0, fuseStacks := 0, fusePlanes := 0,
    rollback := 0, running := none, bootedB := false, slotA := none, slotB := none, tdie := [], thbm := [],
    vcore := [], fcore := [], pmon := [], pmod := 0, tthr := 0x320, tcrit := 0x370, hthr := 0x2F8, hcrit := 0x348,
    hotCl := [], hotSt := [], badV := [], goodV := [], heldDie := [], fencedStacks := 0, fenceBusy := none, fenceWait := [],
    clop := none, mfErr := 0, session := false, certs := [], keys := [], meas := [], fromImage := [] }

/-- The model's own control after reset (log 1). -/
def Ctl.reset : Ctl :=
  { cur := none, insn := { pc := 0, word := 0, ext := 0 }, issue := [], agenda := [], selfq := [], choices := [],
    out := [], nextOp := 0, free := 0 }

/-- The device right after reset: package reset asserted, stage ROM, nothing resident, nothing mapped (12 R355). -/
def State.reset : State :=
  { warps := [], groups := [], grids := [], cores := [],
    mends := [(0, Mend.reset), (1, Mend.reset), (2, Mend.reset), (3, Mend.reset)],
    mem := MemSys.reset, ops := [], sends := [], sched := Sched.reset, seams := [], fab := Fabric.reset,
    host := { up := false, buf := [], reqs := [], wins := [], loss := 0, log := [], loose := [] },
    land := { wins := [], wrs := [], err := 0, flt := 0 },
    clus := [], mgmt := Mgmt.reset, ctl := Ctl.reset }

end Sys2Proof.Machine
end

