-- ==== Sys2Proof/Machine/Maps.lean ====
section
/-! DEFINITION. Finite maps as ascending lists of key and value, and sparse files with a default value, in one
canonical form: keys strictly rising, and in a sparse file no entry equal to the default (log 1, log 2). -/

namespace Sys2Proof.Machine

/-- The value at a key. -/
def kget {α : Type} : KV α → Nat → Option α
  | [], _ => none
  | (j, x) :: r, k => if j = k then some x else kget r k

/-- The map with a key set. -/
def kset {α : Type} : KV α → Nat → α → KV α
  | [], k, y => [(k, y)]
  | (j, x) :: r, k, y =>
    if k < j then (k, y) :: (j, x) :: r
    else if k = j then (k, y) :: r
    else (j, x) :: kset r k y

/-- The map without a key. -/
def kdel {α : Type} : KV α → Nat → KV α
  | [], _ => []
  | (j, x) :: r, k => if j = k then r else (j, x) :: kdel r k

/-- Whether a key is present. -/
def khas {α : Type} (l : KV α) (k : Nat) : Bool := (kget l k).isSome

/-- The value at a key, or a default. -/
def kgetD {α : Type} (l : KV α) (k : Nat) (d : α) : α := (kget l k).getD d

/-- Changes the value at a key that is present. -/
def kmod {α : Type} (l : KV α) (k : Nat) (f : α → α) : KV α :=
  match kget l k with
  | none => l
  | some x => kset l k (f x)

/-- Sets or removes. -/
def kput {α : Type} (l : KV α) (k : Nat) (x : Option α) : KV α :=
  match x with
  | none => kdel l k
  | some y => kset l k y

/-- Maps the values. -/
def kmap {α β : Type} (f : Nat → α → β) (l : KV α) : KV β := l.map fun e => (e.1, f e.1 e.2)

/-- Keeps the entries that satisfy a condition. -/
def kfilter {α : Type} (f : Nat → α → Bool) (l : KV α) : KV α := l.filter fun e => f e.1 e.2

/-- Keys strictly above a bound, strictly rising. -/
def kabove {α : Type} : Nat → KV α → Bool
  | _, [] => true
  | b, (j, _) :: r => b < j && kabove j r

/-- Keys strictly rising. -/
def ksorted {α : Type} : KV α → Bool
  | [] => true
  | (j, _) :: r => kabove j r

/-- A sparse read: an unlisted key holds the default. -/
def sget {α : Type} (d : α) (l : KV α) (k : Nat) : α := (kget l k).getD d

/-- A sparse write: writing the default removes the entry. -/
def sset {α : Type} [DecidableEq α] (d : α) (l : KV α) (k : Nat) (x : α) : KV α :=
  if x = d then kdel l k else kset l k x

/-- Canonical form of a sparse file. -/
def swf {α : Type} [DecidableEq α] (d : α) (l : KV α) : Bool := ksorted l && l.all (fun e => !decide (e.2 = d))

/-- Canonical form of memory: addresses strictly rising, no entry equal to what an unlisted address reads as. -/
def Memory.wf (m : Memory) : Bool := swf (0 : Byte) m

/-- One byte of a memory. -/
def mget (m : Memory) (a : Nat) : Byte := sget 0 m a

/-- One byte stored. -/
def mset (m : Memory) (a : Nat) (b : Byte) : Memory := sset 0 m a b

/-- n bytes from an address. -/
def mread (m : Memory) (a n : Nat) : List Byte := (List.range n).map fun i => mget m (a + i)

/-- Bytes stored from an address, in ascending order. -/
def mwrite : Memory → Nat → List Byte → Memory
  | m, _, [] => m
  | m, a, b :: r => mwrite (mset m a b) (a + 1) r

/-- A little-endian number of n bytes (00 R5). -/
def mnum (m : Memory) (a n : Nat) : Nat := leNat (mread m a n)

/-- The memory without the bytes of a range. -/
def mclear (m : Memory) (a n : Nat) : Memory := m.filter fun e => e.1 < a || a + n ≤ e.1

/-- The bytes of a range, moved to start at another address. -/
def mslice (m : Memory) (a n b : Nat) : Memory :=
  (m.filter fun e => a ≤ e.1 && e.1 < a + n).map fun e => (e.1 - a + b, e.2)

/-- Stores the listed bytes of another memory. -/
def moverlay (m src : Memory) : Memory := src.foldl (fun m e => mset m e.1 e.2) m

/-- A range copied between memories: every byte of the range takes the source's value. -/
def mcopy (dst : Memory) (b : Nat) (src : Memory) (a n : Nat) : Memory := moverlay (mclear dst b n) (mslice src a n b)

/-- A register of a file. -/
def rget (r : Regs) (i : Nat) : Word := sget 0 r i

/-- A register written. -/
def rset (r : Regs) (i : Nat) (x : Word) : Regs := sset 0 r i x

/-- A lane mask of a file. -/
def pget (r : Masks) (i : Nat) : Lanes := sget 0 r i

/-- A lane mask written. -/
def pset (r : Masks) (i : Nat) (x : Lanes) : Masks := sset 0 r i x

/-- A list without one value. -/
def dropNat (l : List Nat) (x : Nat) : List Nat := l.filter (· != x)

/-- The lowest number below n that a list does not hold. -/
def lowestFree (l : List Nat) (n : Nat) : Option Nat := (List.range n).find? (fun i => !l.contains i)

/-- A list with one element replaced. -/
def setAt {α : Type} : List α → Nat → α → List α
  | [], _, _ => []
  | _ :: r, 0, y => y :: r
  | x :: r, i + 1, y => x :: setAt r i y

end Sys2Proof.Machine
end

