-- ==== Sys2Proof/Machine/Home.lean ====
section
/-! DEFINITION. Bytes at home (03 R61, R72, R78 to R80, R85; 08 R245; 11 R339; 16 R406): fields of lease records, sectors of
the page cache, and the pool extent behind them. -/

namespace Sys2Proof.Machine

open Host

/-- Lease record fields (03 Table 3-9). -/
def Lease.st (l : Lease) : Nat := bitsOf l.bits.toNat 125 3
def Lease.reserve (l : Lease) : Bool := bitAt l.bits.toNat 124
def Lease.writer (l : Lease) : Bool := bitAt l.bits.toNat 123
def Lease.pressed (l : Lease) : Bool := bitAt l.bits.toNat 122
def Lease.owner (l : Lease) : Nat := bitsOf l.bits.toNat 112 2
def Lease.node (l : Lease) : Nat := bitsOf l.bits.toNat 96 16
def Lease.extent (l : Lease) : Nat := bitsOf l.bits.toNat 64 32
def Lease.part (l : Lease) : Nat := bitsOf l.bits.toNat 119 3
def Lease.expiry (l : Lease) : Nat := bitsOf l.bits.toNat 0 64
/-- Accesses proceed only in Active and Renewing (03 R80). -/
def Lease.live (l : Lease) : Bool := l.st == 1 || l.st == 2
/-- The lease with another state; the field last keeps how it last ended (16 R398). -/
def Lease.tgt (l : Lease) (st : Nat) : Lease :=
  { l with bits := BitVec.ofNat 128 (l.bits.toNat % 2 ^ 125 + st * 2 ^ 125), last := if 3 ≤ st then BitVec.ofNat 3 st else l.last }

/-- The lease of a local physical address (03 R61). -/
def MemSys.leaseAt (m : MemSys) (a : Nat) : Lease := kgetD m.leases (a / 2 ^ 30) Lease.reset

/-- The extent of a record, and that of a pool address: node and extent number (11 R339). -/
def Lease.home (l : Lease) : Nat := l.node * 2 ^ 32 + l.extent
def poolHome (addr : Nat) : Nat := addr / 2 ^ 30

/-- Demand-event reason of a lease that no access may use (03 Table 3-7). -/
def leaseReason (l : Lease) : Option Nat :=
  if l.live then none else some (match l.st with | 3 => 4 | 4 => 5 | 5 => 6 | _ => 1)

/-- Pool address of a local physical address (11 R339). -/
def MemSys.poolAddr (m : MemSys) (a : Nat) : Nat :=
  let l := m.leaseAt a
  l.node * 2 ^ 62 + l.extent * 2 ^ 30 + a % 2 ^ 30

/-- State of a sector; one that the map does not list is not valid. -/
def MemSys.sec (m : MemSys) (k : Nat) : Sector := kgetD m.secs k { valid := false, dirty := false, lost := false }

/-- Whether the sector of an address is valid in the page cache. -/
def MemSys.valid (m : MemSys) (a : Nat) : Bool := (m.sec (a / 4096)).valid

/-- A byte at its home slice: of the valid sector, else of the pool extent (03 R72). -/
def MemSys.byte (m : MemSys) (a : Nat) : Byte := if m.valid a then mget m.bytes a else mget m.pool (m.poolAddr a)

/-- n bytes of local physical memory or of the carve, as a number. -/
def MemSys.num (m : MemSys) (carve : Bool) (a n : Nat) : Nat :=
  leNat ((List.range n).map fun i => if carve then mget m.carve (a + i) else m.byte (a + i))

/-! Sectors at rest (11 R346): each is encrypted under the key of its extent's partition, or the domain pressed key. What a
sector holds reads back under the key that it was written with; under another key the manual's cipher gives other bytes. -/

/-- The key of a lease's extent. -/
def Mgmt.keyOf (g : Mgmt) (l : Lease) : BitVec 256 := kgetD g.keys (if l.pressed then 8 else l.part) 0

/-- The key of a local physical address. -/
def State.keyAt (s : State) (a : Nat) : BitVec 256 := s.mgmt.keyOf (s.mem.leaseAt a)

/-- The tweak of a sector of the pool, by its pool address. -/
def sectorTweak (addr : Nat) : List Byte :=
  leBytes 16 (addr / 2 ^ 62 * 2 ^ 112 + addr / 2 ^ 30 % 2 ^ 32 * 2 ^ 80 + addr % 2 ^ 30 / 4096)

/-- A sector of the pool has been written under a key. -/
def MemSys.seal (m : MemSys) (addr : Nat) (key : BitVec 256) : MemSys := { m with seals := kset m.seals (addr / 4096) key }

/-- A sector takes its bytes from the pool, under a key (03 R72; 11 R346). -/
def MemSys.fillFrom (m : MemSys) (k addr : Nat) (key : BitVec 256) : MemSys :=
  let old := kgetD m.seals (addr / 4096) key
  let bytes := if old == key then mcopy m.bytes (k * 4096) m.pool addr 4096
    else mwrite m.bytes (k * 4096) ((Config.misread old key (sectorTweak addr) (mread m.pool addr 4096)).take 4096)
  { m with bytes := bytes, secs := kset m.secs k { m.sec k with valid := true, dirty := false } }

/-- A byte of local memory as a fill would bring it: of the valid sector, else of the pool extent under the key of its lease (03 R72;
11 R346). -/
def State.homeByte (s : State) (a : Nat) : Byte :=
  let m := s.mem
  let p := m.poolAddr (a / 4096 * 4096)
  let old := kgetD m.seals (p / 4096) (s.keyAt a)
  if m.valid a || old == s.keyAt a then m.byte a
  else (Config.misread old (s.keyAt a) (sectorTweak p) (mread m.pool p 4096)).getD (a % 4096) 0

/-- A sector that is not valid is filled at once. -/
def MemSys.fill (m : MemSys) (k : Nat) (key : BitVec 256) : MemSys :=
  if (m.sec k).valid then m else m.fillFrom k (m.poolAddr (k * 4096)) key

/-- A dirty sector is written back to the pool (03 R72). -/
def MemSys.writeBack (m : MemSys) (k : Nat) (key : BitVec 256) : MemSys :=
  if (m.sec k).valid && (m.sec k).dirty then
    { m with pool := mcopy m.pool (m.poolAddr (k * 4096)) m.bytes (k * 4096) 4096,
             secs := kset m.secs k { m.sec k with dirty := false } }.seal (m.poolAddr (k * 4096)) key
  else m

/-- A sector leaves the page cache without a write-back. -/
def MemSys.dropSector (m : MemSys) (k : Nat) : MemSys :=
  { m with bytes := mclear m.bytes (k * 4096) 4096, secs := kdel m.secs k }

/-- Bytes stored at a valid sector, which becomes dirty. -/
def MemSys.poke (m : MemSys) (a : Nat) (bs : List Byte) : MemSys :=
  { m with bytes := mwrite m.bytes a bs, secs := kset m.secs (a / 4096) { m.sec (a / 4096) with valid := true, dirty := true } }

/-- A byte changed at its home, in the valid sector or else in the pool extent. -/
def MemSys.setByte (m : MemSys) (a : Nat) (b : Byte) : MemSys :=
  if m.valid a then m.poke a [b] else { m with pool := mset m.pool (m.poolAddr a) b }

/-- A sector of the pool takes the bytes of a local sector: of the page cache, else of its own extent, as they read under
its key (11 R346). -/
def MemSys.pressSector (m : MemSys) (key : BitVec 256) (a b : Nat) : Memory :=
  let old := kgetD m.seals (m.poolAddr b / 4096) key
  if m.valid b then mcopy m.pool a m.bytes b 4096
  else if old == key then mcopy m.pool a m.pool (m.poolAddr b) 4096
  else mwrite m.pool a ((Config.misread old key (sectorTweak (m.poolAddr b)) (mread m.pool (m.poolAddr b) 4096)).take 4096)

/-- The contents of a pressed page at its pool home become those of a page, as its next version: one of this device's memory or
carve, or the bytes that were read of one elsewhere (03 R85; 07 R226). -/
def MemSys.pressPage (m : MemSys) (key : BitVec 256) (a : Nat) (back : Place) (bs : List Byte) : MemSys :=
  let m : MemSys := match back with
    | .loc b _ => (List.range 16).foldl (fun (m : MemSys) i => { m with pool := m.pressSector key (m.poolAddr a + 4096 * i) (b + 4096 * i) }) m
    | .carve b => { m with pool := mcopy m.pool (m.poolAddr a) m.carve b 65536 }
    | _ => { m with pool := mwrite m.pool (m.poolAddr a) (bs.take 65536) }
  { m with pver := kset m.pver (a / 65536) (kgetD m.pver (a / 65536) 0 + 1) }

end Sys2Proof.Machine
end

