-- ==== Sys2Proof/Machine/Folds.lean ====
section
/-! DEFINITION. The shape of a fold (03 R81, R82): fields of its record, and the virtual pages of a region; the operations
by which the prefetch engine fetches or releases them (03 R84). -/

namespace Sys2Proof.Machine

/-- Cartesian product of the pages of a fold region: multiples of strides (03 R82). -/
def foldPages (base : Int) : List (List Nat × Int) → List Int
  | [] => [base]
  | (ix, st) :: r => ix.flatMap fun (i : Nat) => foldPages (base + (i : Int) * st * 65536) r

/-- Fields of a fold record (03 Table 3-11). -/
def foldExtent (b i : Nat) : Nat := max 1 (bitsOf b (64 + 64 * i) 16)
def foldStride (b i : Nat) : Int := sextNat 32 (bitsOf b (96 + 64 * i) 32)
def foldPrio (b : Nat) : Nat := bitsOf b 12 4
def foldNdim (b : Nat) : Nat := bitsOf b 8 2
def foldFirst (b : Nat) : Nat := bitsOf b 320 16
def foldNstep (b : Nat) : Nat := bitsOf b 336 16

/-- Virtual pages of a region: outermost index in the range START to START + COUNT - 1 (03 R82). The manual does not say
what an address past the top of the virtual space names: the model takes it modulo 2^57 (log 81). -/
def regionPages (b start count : Nat) : List Nat :=
  let n := foldNdim b
  let dims := (List.range (n + 1)).map fun i =>
    let all := List.range (foldExtent b i)
    (if i == n then all.filter fun j => decide (start ≤ j) && decide (j < start + count) else all, foldStride b i)
  (foldPages (bitsOf b 16 41 * 65536) dims).map fun x => wrapInt 57 x

/-- An element at a virtual address, not yet translated. -/
def Elem.virt (lane va n : Nat) (data swap : DWord) (reg : Nat) : Elem :=
  { lane := lane, va := va, n := n, place := none, data := data, swap := swap, reg := reg, got := none, done := false, sent := false }

/-- A request of the prefetch engine for a context (03 R84). -/
def foldOp (ctx : Nat) (a : Acc) (es : List Elem) : Op :=
  { who := .fold, ctx := ctx, gk := 0, insn := { pc := 0, word := 0, ext := 0 }, kind := .acc a, lanes := 0, slot := none,
    elems := es, hold := [], want := [], epoch := 0 }

/-- The fetch or release of a region's pages: an element for each sector of 4 KiB that is fetched, or for each page. -/
def foldPagesOp (ctx b start count : Nat) (fetch : Bool) : Op :=
  let pages := regionPages b start count
  foldOp ctx (.foldPages fetch (if fetch then foldPrio b else 0))
    (if fetch then pages.flatMap fun va => (List.range 16).map fun i => Elem.virt 0 (va + 4096 * i) 1 0 0 0
     else pages.map fun va => Elem.virt 0 va 1 0 0 0)

/-- A new operation of the device's own. -/
def State.newOp (s : State) (o : Op) : State :=
  { s with ops := kset s.ops s.ctl.nextOp o, ctl := { s.ctl with nextOp := s.ctl.nextOp + 1 } }

/-- The fetch or release of a region starts; a region without pages has nothing to do. -/
def State.foldRegion (s : State) (ctx b start count : Nat) (fetch : Bool) : State :=
  let o := foldPagesOp ctx b start count fetch
  if o.elems.isEmpty then s else s.newOp o

end Sys2Proof.Machine
end

