-- ==== Sys2Proof/Machine/Ops.lean ====
section
/-! DEFINITION. Shared operations over the state: the issuing agent and its registers, the end of an instruction,
charges, the removal of a context, and TAKING A TRAP as one operation (15 R379 to R383), with the restart of a mending
core that is the return from one (15 R381; 12 R361). -/

namespace Sys2Proof.Machine

open Host

/-- What a meaning answers. -/
abbrev Res := Outcome State Fault Refusal

/-! ### Keys and places -/

/-- Core of a warp key. -/
def wkCore (wk : Nat) : Nat := wk / 128
/-- Slot of a warp key. -/
def wkSlot (wk : Nat) : Nat := wk / 8 % 16
/-- Packing position of a warp key. -/
def wkPos (wk : Nat) : Nat := wk % 8
/-- Quad of a slot: four slots each (01 R12). -/
def slotQuad (slot : Nat) : Nat := slot / 4
/-- The supervisor warp of a core: slot 15, position 0 (07 R236). -/
def supKey (core : Nat) : Nat := core * 128 + 120
/-- Whether a warp key names a supervisor warp. -/
def isSup (wk : Nat) : Bool := wkSlot wk == 15
/-- Die of a core, 64 cores each; the mending core of die d is number d (01 R10, R11). -/
def coreDie (core : Nat) : Nat := core / 64
/-- Key of a group. -/
def gkey (grid ix : Nat) : Nat := grid * 2 ^ 24 + ix
/-- Grid of a group key. -/
def gkGrid (gk : Nat) : Nat := gk / 2 ^ 24
/-- Group index of a group key. -/
def gkIx (gk : Nat) : Nat := gk % 2 ^ 24
/-- Context number of the supervisor context of a partition, of a host window, of a queue: none is a grid id. -/
def supCtx (part : Nat) : Nat := 2 ^ 32 + part
def winCtx (win : Nat) : Nat := 2 ^ 33 + win
def queueCtx (q : Nat) : Nat := 2 ^ 34 + q

/-! ### Updates of single fields of the state -/

def State.setWarp (s : State) (wk : Nat) (w : Warp) : State := { s with warps := kset s.warps wk w }
def State.modWarp (s : State) (wk : Nat) (f : Warp → Warp) : State := { s with warps := kmod s.warps wk f }
def State.setGroup (s : State) (gk : Nat) (g : Group) : State := { s with groups := kset s.groups gk g }
def State.modGroup (s : State) (gk : Nat) (f : Group → Group) : State := { s with groups := kmod s.groups gk f }
def State.modGrid (s : State) (g : Nat) (f : Grid → Grid) : State := { s with grids := kmod s.grids g f }
def State.setMend (s : State) (m : Nat) (c : Mend) : State := { s with mends := kset s.mends m c }
def State.modMend (s : State) (m : Nat) (f : Mend → Mend) : State := { s with mends := kmod s.mends m f }
def State.setMem (s : State) (m : MemSys) : State := { s with mem := m }
def State.setCtl (s : State) (c : Ctl) : State := { s with ctl := c }

/-- A core; one that the map does not list is as after reset. -/
def State.core (s : State) (c : Nat) : Core := kgetD s.cores c Core.reset
def State.modCore (s : State) (c : Nat) (f : Core → Core) : State := { s with cores := kset s.cores c (f (s.core c)) }
/-- A queue's control record. -/
def State.queue (s : State) (q : Nat) : Queue := kgetD s.sched.queues q Queue.reset
def State.modQueue (s : State) (q : Nat) (f : Queue → Queue) : State :=
  { s with sched := { s.sched with queues := kset s.sched.queues q (f (s.queue q)) } }
/-- A partition record. -/
def State.part (s : State) (p : Nat) : Part := kgetD s.sched.parts p Part.reset
def State.modPart (s : State) (p : Nat) (f : Part → Part) : State :=
  { s with sched := { s.sched with parts := kset s.sched.parts p (f (s.part p)) } }
/-- A count word. -/
def State.count (s : State) (k : Nat) : DWord := sget 0 s.sched.counts k
/-- A landing window. -/
def State.win (s : State) (w : Nat) : LandWin := kgetD s.land.wins w LandWin.reset
def State.modWin (s : State) (w : Nat) (f : LandWin → LandWin) : State :=
  { s with land := { s.land with wins := kset s.land.wins w (f (s.win w)) } }
/-- A lease record. -/
def State.lease (s : State) (l : Nat) : Lease := kgetD s.mem.leases l Lease.reset
/-- Something leaves the device, or answers a command. -/
def State.emit (s : State) (o : Out) : State := { s with ctl := { s.ctl with out := s.ctl.out ++ [o] } }
/-- A message of the device to itself. -/
def State.selfSend (s : State) (i : Instr) : State := { s with ctl := { s.ctl with selfq := s.ctl.selfq ++ [i] } }
/-- A new operation number. -/
def State.opNo (s : State) : Nat := s.ctl.nextOp
def State.bumpOp (s : State) : State := { s with ctl := { s.ctl with nextOp := s.ctl.nextOp + 1 } }
/-- The next choice of the tape, 0 when it is empty (log 1). -/
def State.choice (s : State) : Nat := s.ctl.choices.headD 0
def State.dropChoice (s : State) : State := { s with ctl := { s.ctl with choices := s.ctl.choices.drop 1 } }

/-- Folds a step over a list. -/
def forEach {α σ : Type} (l : List α) (s : σ) (f : σ → α → σ) : σ := l.foldl f s

/-- A management command other than RDREG (12 R361): accepted inside a secure session alone, else answered with an
error. While package reset is asserted nothing answers. -/
def mgmtCmd (s : State) (k : State → State) : Res :=
  if s.mgmt.asserted then .next s else if s.mgmt.session then .next (k s) else .next (s.emit .mgmtError)

/-- A write of the host to the command window: its port is up from stage RUN on (11 R322; 12 R355). -/
def hostCmd (s : State) (k : State → State) : Res := if s.host.up then .next (k s) else .next s

/-! ### Warps -/

/-- Lanes that take part in the frontier: live and not parked in an open RCW (02 R28, R32). -/
def Warp.runLanes (w : Warp) : Lanes :=
  match w.rcw with
  | none => w.live
  | some r => w.live &&& ~~~r.lanes

/-- The pc of a lane. -/
def Warp.pcOf (w : Warp) (l : Nat) : Nat := (rget w.pcs l).toNat

/-- Sets the pc of the lanes of a list. -/
def setPcs (pcs : Regs) (ls : List Nat) (pc : Nat) : Regs :=
  ls.foldl (fun r l => rset r l (BitVec.ofNat 32 pc)) pcs

/-- Lanes of a mask whose pc is a given address. -/
def Warp.lanesAt (w : Warp) (m : Lanes) (pc : Nat) : List Nat := (lanesOf m).filter fun l => w.pcOf l == pc

/-- Lanes fall through to a header position (02 R30); lanes that already wait there are noted. A lane parked in an open
RCW does not wait there until it is released (02 R32). -/
def Warp.fallTo (w : Warp) (ls : List Nat) (pc : Nat) : Warp :=
  let there := (w.lanesAt w.runLanes pc).any fun l => !ls.contains l
  { w with pcs := setPcs w.pcs ls pc, merged := if there then pc :: w.merged else w.merged }

/-- Value of predicate p in each lane; p7 reads ones (02 R38). -/
def Warp.pred (w : Warp) (p : Nat) : Lanes := if p == 7 then BitVec.allOnes 128 else pget w.p p

/-- Lanes in which predicate p, negated by n, holds. -/
def Warp.predN (w : Warp) (p : Nat) (n : Bool) : Lanes := if n then ~~~(w.pred p) else w.pred p

/-- Writes a predicate in the lanes of a mask; a write to p7 is ignored (02 R38). -/
def Warp.setPred (w : Warp) (p : Nat) (m v : Lanes) : Warp :=
  if p == 7 then w else { w with p := pset w.p p ((pget w.p p &&& ~~~m) ||| (v &&& m)) }

/-- Number of vector registers held (02 R39). -/
def Warp.held (w : Warp) : Nat := 32 + 16 * w.x

/-- Key of vector register r of a lane in the sparse file. -/
def vkey (r l : Nat) : Nat := r * 128 + l

/-- A vector register of a lane. -/
def Warp.vget (w : Warp) (r l : Nat) : Word := rget w.v (vkey r l)

/-- A vector register of a lane written. -/
def Warp.vset (w : Warp) (r l : Nat) (x : Word) : Warp := { w with v := rset w.v (vkey r l) x }

/-- A q bit. -/
def qbit (q : BitVec 4) (i : Nat) : Bool := q.getLsbD i

/-- A q bit written. -/
def setq (q : BitVec 4) (i : Nat) (b : Bool) : BitVec 4 :=
  if b then q ||| BitVec.ofNat 4 (2 ^ i) else q &&& ~~~(BitVec.ofNat 4 (2 ^ i))

/-- A bit of PEND set (02 R52). -/
def Warp.setPend (w : Warp) (i : Nat) : Warp := { w with pend := w.pend ||| BitVec.ofNat 32 (2 ^ i) }

/-- A bit of PEND cleared. -/
def Warp.clrPend (w : Warp) (i : Nat) : Warp := { w with pend := w.pend &&& ~~~(BitVec.ofNat 32 (2 ^ i)) }

/-- Outstanding count of a scoreboard slot. -/
def Warp.slot (w : Warp) (k : Nat) : Nat := sget 0 w.sb k

def Warp.slotUp (w : Warp) (k : Nat) : Warp := { w with sb := sset 0 w.sb k (w.slot k + 1) }
def Warp.slotDown (w : Warp) (k : Nat) : Warp := { w with sb := sset 0 w.sb k (w.slot k - 1) }

/-- Flags set in AFLAGS (05 R142, R143). -/
def Warp.flag (w : Warp) (fl : Nat) : Warp := { w with aflags := w.aflags ||| BitVec.ofNat 32 fl }

/-- Lane-blocks a warp costs (02 R40). -/
def warpBlocks (width x : Nat) : Nat := 2 * width + width * x

/-- The clause ends with no further instruction: its live lanes stand at the next header position. -/
def Warp.endClause (w : Warp) (c : ClausePos) : Warp :=
  { w.fallTo (lanesOf (c.here &&& w.live)) c.nexth with clause := none, swWait := c.sw }

/-- The clause that a warp is in: until its first instruction issues it is in none, and meets the clause anew (02 R28; 04
R98). -/
def Warp.inClause (w : Warp) : Option ClausePos := match w.clause with
  | some c => if c.stop != 0 && c.next == c.hdr + 4 then none else some c
  | none => none

/-- The end of an instruction that does not branch (04 R98; 02 R28): the next word, or the next header position for
every live lane at the clause when it was the last. The switch marker then makes the warp wait (04 R100). -/
def Warp.advance (w : Warp) (c : ClausePos) (len : Nat) : Warp :=
  let c' := { c with next := c.next + 4 * len }
  if c'.next < c.stop then { w with clause := some c' } else w.endClause c

/-! ### The issuing agent -/

/-- Words of the instruction being issued: 1 or 2 (04 R435). -/
def State.insnLen (s : State) : Nat := instrLen s.ctl.insn.word

/-- Runs a meaning on the issuing warp and its clause. -/
def onWarp (s : State) (k : Nat → Warp → ClausePos → Res) : Res :=
  match s.ctl.cur with
  | some (.warp wk) =>
    match kget s.warps wk with
    | some w =>
      match w.clause with
      | some c => k wk w c
      | none => .fault .noIssuer
    | none => .fault .noIssuer
  | _ => .fault .noIssuer

/-- Runs a meaning on the issuing mending core and its clause. -/
def onMend (s : State) (k : Nat → Mend → ClausePos → Res) : Res :=
  match s.ctl.cur with
  | some (.mend m) =>
    match kget s.mends m with
    | some c =>
      match c.clause with
      | some p => k m c p
      | none => .fault .noIssuer
    | none => .fault .noIssuer
  | _ => .fault .noIssuer

/-- Runs one of two meanings, by the kind of the issuing agent. -/
def onAgent (s : State) (f : Nat → Warp → ClausePos → Res) (g : Nat → Mend → ClausePos → Res) : Res :=
  match s.ctl.cur with
  | some (.mend _) => onMend s g
  | _ => onWarp s f

/-- The end of an instruction on a mending core. -/
def Mend.advance (m : Mend) (c : ClausePos) (len : Nat) : Mend :=
  let c' := { c with next := c.next + 4 * len }
  if c'.next < c.stop then { m with clause := some c', pc := c.hdr } else { m with clause := none, pc := c.nexth }

/-- The next state of an instruction of a warp that leaves the warp as w and goes on to the next word. -/
def doneWarp (s : State) (wk : Nat) (w : Warp) (c : ClausePos) : Res :=
  .next (s.setWarp wk (w.advance c s.insnLen))

/-- The same on a mending core. -/
def doneMend (s : State) (m : Nat) (x : Mend) (c : ClausePos) : Res :=
  .next (s.setMend m (x.advance c s.insnLen))

/-- The instruction waits: nothing changes, and it is issued again (02 R56; log 7). -/
def waitRetry (s : State) : Res := .next s

/-! ### Charges (10 R303) -/

/-- Whether a group is resident (02 R48). -/
def GPhase.resident : GPhase → Bool
  | .saved _ => false
  | .gone => false
  | .reserved _ => false
  | _ => true

/-- Whether a group is Absent with a frame (02 R48). -/
def GPhase.isSaved : GPhase → Bool
  | .saved _ => true
  | _ => false

/-- Whether a seam member holds room that is not committed (10 R305). -/
def GPhase.reservedRoom : GPhase → Bool
  | .reserved _ => true
  | _ => false

/-- Core-cycles of the current residency. -/
def State.residency (s : State) (g : Group) : Nat :=
  g.since.foldl (fun n e => n + ((s.core e.1).cycles - e.2)) 0

/-- Adds to a queue's DEFICIT. -/
def State.addDeficit (s : State) (q : Nat) (x : Int) : State :=
  s.modQueue q fun r => { r with deficit := r.deficit + BitVec.ofInt 64 x }

/-- Charges a grid: its queue's DEFICIT falls by x and its CYCLES rise by x. -/
def State.charge (s : State) (grid : Nat) (x : Int) : State :=
  match kget s.grids grid with
  | none => s
  | some g => (s.modGrid grid fun g => { g with cycles := g.cycles + x }).addDeficit g.q (-x)

/-- A residency ends: its core-cycles are charged and join W (10 R303, R309). -/
def State.endResidency (s : State) (gk : Nat) : State :=
  match kget s.groups gk with
  | none => s
  | some g =>
    if !g.phase.resident then s
    else
      let c := s.residency g
      (s.modGroup gk fun g => { g with w := g.w + c, since := [] }).charge (gkGrid gk) c

/-- The provisional charge is added back (10 R303). -/
def State.refundP (s : State) (gk : Nat) : State :=
  match kget s.groups gk with
  | none => s
  | some g => (s.modGroup gk fun g => { g with p := 0 }).charge (gkGrid gk) (-g.p)

/-! ### Removal of warps and groups -/

/-- A mailbox without the messages to given positions (slot × 8 + position). -/
def dropMsgs (l : List Msg) (tos : List Nat) : List Msg := l.filter fun m => !tos.contains m.tgt

/-- Takes a group's warps out of the machine: their slots, requests for blocks and mailbox messages. Messages that they
sent stay on their way, and lower no slot any more. -/
def State.dropWarps (s : State) (gk : Nat) : State :=
  match kget s.groups gk with
  | none => s
  | some g =>
    let keys := g.wks.map (·.2)
    let s := { s with warps := kfilter (fun k _ => !keys.contains k) s.warps,
                      sends := s.sends.map fun (x : Send) => if x.gk == gk && keys.contains x.from_ then { x with slot := none } else x }
    let s := g.cores.foldl (fun s c => s.modCore c fun x =>
      { x with mbox := dropMsgs x.mbox ((keys.filter (wkCore · == c)).map (· % 128)),
               xq := x.xq.filter fun r => !keys.contains r.wk }) s
    s.modGroup gk fun g => { g with wks := [] }

/-- What is left of a request whose issuer is gone: it has no slot, and its stores keep the L1 of the core that issued it. -/
def Op.leave (o : Op) : Op :=
  { o with who := .orphan, slot := none, core := match o.who with
    | .warp wk => some (wk / 128)
    | _ => o.core }

/-- Requests of an operation that have left the core and are unanswered, as an operation that waits for their answers
(15 R383 steps 2, 7). -/
def Op.leftOut (o : Op) : Option Op :=
  if o.elems.any fun e => e.sent && !e.done then
    some { o.leave with kind := .acc (.load false 0 false), hold := [], want := [], fails := [],
                        elems := o.elems.map fun e => { e with done := e.done || !e.sent } }
  else none

/-- Requests of a context that has been killed (15 R383): stores and atomics that passed every check go on without
an issuer, and so does a TURN whose step has happened; of anything else, requests that have left the core are waited for. -/
def Op.orphaned (o : Op) : Option Op :=
  let goes := o.hold == [] && o.want == [] && o.fails == [] && o.elems.all fun e => e.place.isSome
  match o.kind with
  | .acc .store => if goes then some o.leave else o.leftOut
  | .acc (.atom ..) => if goes then some o.leave else o.leftOut
  | .acc (.tile true _) => if goes then some o.leave else o.leftOut
  | .async (.turn _ true _ _ _) _ _ _ _ _ => some o.leave
  | _ => o.leftOut

/-- Operations after a context ctx is killed; a landing-port or queue request is not the context's. Of the prefetch engine's
the releases go on. -/
def killOps (ops : KV Op) (ctx : Nat) : KV Op :=
  ops.filterMap fun e =>
    match e.2.who with
    | .warp _ => if e.2.ctx == ctx then (e.2.orphaned).map fun o => (e.1, o) else some e
    | .orphan => if e.2.ctx == ctx && e.2.kind == .acc .probe then none else some e
    | .fold => if e.2.ctx == ctx && !(match e.2.kind with
      | .acc (.foldPages false _) => true
      | _ => false) then none else some e
    | _ => some e

/-- The device answers the demand events of a context itself (07 R235; 15 R383). -/
def State.answerAll (s : State) (ctx : Nat) : State :=
  { s with mends := kmap (fun _ (m : Mend) => { m with dem := kfilter (fun _ d => d.ctx != ctx) m.dem }) s.mends }

/-- Clears OPEN in the record of a lining at its home (15 R383 step 4; 07 R223). -/
def MemSys.closeLining (m : MemSys) (l : Lining) : MemSys :=
  if l.carve then { m with carve := mset m.carve l.home (mget m.carve l.home &&& 0xFE) }
  else m.setByte l.home (m.byte l.home &&& 0xFE)

/-- The number that an open lining's record holds (07 Table 7-7). -/
def liningBits (l : Lining) (grid : Nat) : Nat :=
  packFields [(1, 1), (l.side.toNat, 1), (l.pressed.toNat, 1), (0, 109), (l.npages, 16), (l.front, 64), (l.back, 64),
    (l.turns.toNat, 32), (grid, 32)]

/-- Whether the home of a record takes a write at once: its sector is valid, its line not at the host, its page in no
migration, its lease live (03 R72; 08 R257; 11 R338). -/
def State.atHand (s : State) (carve : Bool) (a : Nat) : Bool :=
  let m := s.mem
  let x := m.sec (a / 4096)
  if carve then !m.lostCarve.contains (a / 4096)
  else x.valid && !x.lost && (m.leaseAt a).live && !m.hostLines.contains (a / 128 * 2) && !m.hostLines.contains (a / 128 * 2 + 1) &&
    !m.fwds.any (fun f => f.page == a / 65536) && !s.mends.any fun c => match c.2.mig with
      | some h => h.page == a / 65536
      | none => false

/-- The device's own write of a record's 64 bytes with OPEN = 0, for a home that does not take it at once. -/
def closeOp (ctx rec_ : Nat) (l : Lining) : Op :=
  let bs := leBytes 64 (liningBits l ctx &&& (2 ^ 512 - 2))
  { who := .orphan, ctx := ctx, gk := l.group, insn := { pc := 0, word := 0, ext := 0 }, kind := .acc .store, lanes := 0, slot := none,
    elems := (List.range 8).map fun i =>
      { Elem.virt 0 (rec_ + 8 * i) 8 (BitVec.ofNat 64 (leNat ((bs.drop (8 * i)).take 8))) 0 0 with
        place := some (if l.carve then .carve (l.home + 8 * i) else .loc (l.home + 8 * i) .loc) },
    hold := [], want := [], epoch := 0 }

/-- Every lining of a context that satisfies a condition is closed. -/
def State.closeLinings (s : State) (ctx : Nat) (f : Lining → Bool) : State :=
  match kget s.grids ctx with
  | none => s
  | some g =>
    let s := g.linings.foldl (fun s e =>
      if !f e.2 then s else if s.atHand e.2.carve e.2.home then { s with mem := s.mem.closeLining e.2 } else s.newOp (closeOp ctx e.1 e.2)) s
    s.modGrid ctx fun g => { g with linings := kfilter (fun _ l => !f l) g.linings }

/-- A seam member counts as Gone and detached (15 R388; 02 R48). -/
def Seam.leave (m : Seam) (i : Nat) : Seam :=
  { m with gones := m.gones ||| BitVec.ofNat 16 (2 ^ i), dets := m.dets ||| BitVec.ofNat 16 (2 ^ i) }

/-- The seam and member index of a group. -/
def State.seamOf (s : State) (gk : Nat) : Option (SeamRec × Nat) :=
  match kget s.grids (gkGrid gk) with
  | none => none
  | some g => g.seam.map fun r => (r, r.mbase + gkIx gk)

/-- A group is removed by a kill or a partition reset (15 R383; 10 R303). -/
def State.removeGroup (s : State) (gk : Nat) : State :=
  let held := match kget s.groups gk with
    | some g => g.phase.reservedRoom
    | none => false
  let s := ((s.endResidency gk).refundP gk).dropWarps gk
  let s := s.modGroup gk fun g => { g with phase := .gone, scr := [], tiles := [], mq := [] }
  let s := { s with clus := kmap (fun _ (c : Cluster) => { c with pipes := kfilter (fun _ e => e.1 != gk) c.pipes }) s.clus }
  match s.seamOf gk with
  | none => s
  | some (r, i) => { s with seams := kmod s.seams r.id fun m => { m.leave i with revoke := m.revoke || held } }

/-- The landing windows that a context armed are disarmed (07 R229; 15 R383 step 5). -/
def State.disarm (s : State) (ctx : Nat) : State :=
  { s with land := { s.land with wins := kmap (fun _ (w : LandWin) =>
      if w.ctx == some ctx then { w with ctx := none } else w) s.land.wins } }

/-- Kills a context (15 R382, R383) with a STATUS (15 R385): the whole removal takes one step (log 12). A context
that is already killed keeps its first STATUS (15 R384). -/
def State.killGrid (s : State) (ctx status : Nat) : State :=
  match kget s.grids ctx with
  | none => s
  | some g =>
    if g.killed.isSome then s
    else
      let gks := (s.groups.filter fun e => gkGrid e.1 == ctx).map (·.1)
      let s := gks.foldl (fun s k => s.removeGroup k) s
      let s := { s with ops := killOps s.ops ctx }
      let s := g.folds.foldl (fun s f => s.foldRegion ctx f.2.bits 0 65536 false) s
      let s := (s.answerAll ctx).closeLinings ctx fun _ => true
      let s := { s with cores := kmap (fun _ (c : Core) => { c with saved := c.saved.filter fun e => gkGrid e.1 != ctx }) s.cores }
      (s.disarm ctx).modGrid ctx fun g =>
        { g with killed := some status, nextg := g.ngroups, waits := [], frames := [], folds := [], linings := [] }

/-! ### Trap records (15 R379, R380) -/

/-- A precise trap of an instruction with no address (15 R378). -/
def TrapInfo.plain (cause : Nat) (lanes : Lanes) (insn : Insn) : TrapInfo :=
  { cause := cause, origin := 0, detail := 0, aux := 0, lanes := lanes, va := 0, insn := insn }

/-- The 512 bits of a trap record (15 Table 15-2). -/
def trapBits (t : TrapInfo) (grid group warp pos slot core seq disp drops : Nat) : Nat :=
  packFields [(grid, 32), (group, 32), (warp, 8), (0, 9), (pos, 3), (slot, 4), (core, 8), (t.detail, 18), (0, 2),
    (t.origin, 4), (t.cause, 8), (seq, 32), (disp, 8), (0, 8), (drops, 16), (t.insn.pc, 32), (t.insn.word, 32),
    (t.insn.ext, 32), (t.aux, 32), (t.va, 64), (t.lanes.toNat, 128)]

/-- The sixteen words of a record. -/
def wordsOf (n x : Nat) : List Word := (List.range n).map fun i => BitVec.ofNat 32 (x / 2 ^ (32 * i))

/-- A record enters its core's buffer, or is lost when 64 wait there; SEQ of its partition advances (15 R380). -/
def State.postRecord (s : State) (part core : Nat) (bits : Nat → Nat → Nat) : State :=
  let seq := (s.part part).seq
  let s := s.modPart part fun p => { p with seq := p.seq + 1 }
  s.modCore core fun c =>
    if c.traps.length < Config.trapBuffer then
      { c with traps := c.traps ++ [wordsOf 16 (bits seq.toNat c.drops)], drops := 0 }
    else { c with drops := c.drops + 1 }

/-- The record of a trap of warp wk (15 R379). -/
def State.recordOf (s : State) (wk : Nat) (w : Warp) (t : TrapInfo) (disp : Nat) : State :=
  let part := match kget s.grids (gkGrid w.gk) with
    | some g => g.part
    | none => 0
  s.postRecord part (wkCore wk) fun seq drops =>
    trapBits t (gkGrid w.gk) (gkIx w.gk) w.ix (wkPos wk) (wkSlot wk) (wkCore wk) seq disp drops

/-! ### Partition reset (17 R428) -/

/-- Cores of a partition. -/
def State.partCores (s : State) (p : Nat) : List Nat :=
  (List.range Config.cores).filter fun c => (s.part p).clusters.getLsbD (c / 4) && !s.mgmt.fuseClusters.getLsbD (c / 4)

/-- Partition of a core, when one that is not off holds its cluster. -/
def State.coreParts (s : State) (core : Nat) : Option Nat :=
  (List.range 8).find? fun p => (s.part p).state != 0 && (s.part p).clusters.getLsbD (core / 4)

/-- A supervisor warp at its start: SVCODE's first clause, lanes live, registers zero (10 R317; log 13). -/
def Warp.supervisor (part core : Nat) : Warp :=
  { gk := gkey (supCtx part) core, ix := 0, width := 16, x := 0, live := lanesFull 16, pcs := [], v := [], s := [], p := [],
    q := 0, eb := [], pend := 0, emask := 0, sb := [], aflags := 0, aenab := 0, clause := none, swWait := false,
    rcw := none, park := .none, xpend := 0, latch := none, ibufs := [], batch := 0, sealed := [], yield := false,
    joined := false, merged := [], ctxsel := 0, handler := false, hold := none, hst := HostStores.none }

/-- A group as it becomes resident with nothing done yet (10 R296). -/
def Group.fresh (phase : GPhase) (cores slots : List Nat) (wks : KV Nat) (since : List (Nat × Nat)) (p : Int) (admitNo : Nat) : Group :=
  { phase := phase, cores := cores, slots := slots, wks := wks, scr := [], bars := [], tiles := [], mq := [], pub := false,
    pubT := false, w := 0, since := since, p := p, admitNo := admitNo, retired := 0, joins := 0, dets := 0, hostMark := false,
    stuck := none, snap := [] }

/-- Starts the supervisor warps of a partition's cores at SVCODE (10 R317; 11 R347): each is a group of one warp
without scratchpad or tiles (log 13). -/
def State.startSups (s : State) (p : Nat) : State :=
  (s.partCores p).foldl (fun s c =>
    (s.setWarp (supKey c) (Warp.supervisor p c)).setGroup (gkey (supCtx p) c)
      (Group.fresh .run [c] [c * 16 + 15] [(0, supKey c)] [] 0 0)) s

/-- A checkpoint in progress fails (15 R393; 17 R429): STATUS 4, its partitions go on, the previous image stays. -/
def State.ckptFail (s : State) : State :=
  let c := s.sched.ckpt
  if c.status != 1 then s
  else
    let parts := kmap (fun p (r : Part) => if c.run.getLsbD p then { r with stopped := false } else r) s.sched.parts
    { s with sched := { s.sched with parts := parts, ckpt := { c with status := 4, run := 0 } } }

/-- Carve pages of a partition are lost: they read as zero (03 R73; 17 R428). -/
def MemSys.dropCarve (m : MemSys) (p : Nat) : MemSys :=
  let mine := fun (page : Nat) => kget m.carveOwn page == some p
  { m with carve := m.carve.filter fun e => !mine (e.1 / 65536), carveOwn := kfilter (fun _ q => q != p) m.carveOwn,
           lostCarve := m.lostCarve.filter fun k => !mine (k / 16) }

/-- STATUS of a grid killed by a partition reset (15 Table 15-4). -/
def statusReset : Nat := 0x300

/-- The reset of a running partition begins (17 R428 steps 1 to 3): STATE 2, queues off, grids killed with STATUS 0x0300,
supervisor warps, trap buffers and mailboxes cleared, a checkpoint of it failed. -/
def State.resetPart (s : State) (p : Nat) : State :=
  let qs := (List.range 256).filter fun q => (s.queue q).part.toNat == p
  let s := qs.foldl (fun s q => s.modQueue q fun r => { r with en := false, state := 0 }) s
  let gs := (s.grids.filter fun e => e.2.part == p).map (·.1)
  let s := gs.foldl (fun s g => s.killGrid g statusReset) s
  let cores := s.partCores p
  let s := { s with ops := killOps s.ops (supCtx p) }
  let s := (s.answerAll (supCtx p)).disarm (supCtx p)
  let s := cores.foldl (fun s c => s.modCore c fun x => { x with mbox := [], saved := [], traps := [], drops := 0 }) s
  let gone : Nat → Bool := fun k => isSup k && cores.contains (wkCore k)
  let s := { s with warps := kfilter (fun k _ => !gone k) s.warps,
                    sends := s.sends.map fun (x : Send) => if gone x.from_ then { x with slot := none } else x }
  let s := if s.sched.ckpt.run.getLsbD p then s.ckptFail else s
  s.modPart p fun r => { r with state := 2, stopped := false }

/-- Whether what a partition's reset lets complete has completed: its killed grids have left, and no operation of its supervisor
warps is out (17 R428; 15 R383 step 7). -/
def State.resetQuiet (s : State) (p : Nat) : Bool :=
  (s.part p).state == 2 && !s.grids.any (fun g => g.2.part == p) && !s.ops.any fun o => o.2.ctx == supCtx p

/-- The end of a partition's reset: its carve pages are lost, and its supervisor warps restart (17 R428 steps 3 and 4). -/
def State.resetEnd (s : State) (p : Nat) : State :=
  ({ s with mem := s.mem.dropCarve p }.modPart p fun r => { r with state := 1 }).startSups p

/-- Every reset that can end, ends. -/
def State.resetsEnd (s : State) : State := ((List.range 8).filter s.resetQuiet).foldl (fun s p => s.resetEnd p) s

/-! ### Taking a trap -/

/-- The failure of a save handler's warp, which the save path reports (10 R312; 15 R392): the group flushes when it
may, else its context is killed. -/
def State.flushOk (s : State) (gk : Nat) : Bool :=
  match kget s.grids (gkGrid gk), kget s.groups gk with
  | some g, some r => g.desc.idem && !g.desc.seam && !r.pub
  | _, _ => false

/-- Messages kept for the saved warps of a group are discarded. -/
def State.dropSaved (s : State) (gk : Nat) : State :=
  { s with cores := kmap (fun _ (c : Core) => { c with saved := c.saved.filter fun x => x.1 != gk }) s.cores }

/-- A group leaves its cores and waits to start again from the beginning (10 R310, flush); the cycles that it has consumed
stay noted in its grid (10 R309). -/
def State.flushGroup (s : State) (gk : Nat) : State :=
  let s := s.closeLinings (gkGrid gk) fun l => l.group == gk
  let keep : Nat → Op → Bool := fun _ o => !(o.gk == gk && (match o.who with | .warp _ => true | _ => false))
  let s := { s with ops := kfilter keep s.ops }
  let s := (((s.endResidency gk).refundP gk).dropWarps gk).dropSaved gk
  let w := match kget s.groups gk with
    | some g => g.w
    | none => 0
  let s := { s with groups := kdel s.groups gk }
  s.modGrid (gkGrid gk) fun g =>
    let lo := g.waits.filter fun x => decide (x.ix < gkIx gk)
    let hi := g.waits.filter fun x => decide (gkIx gk < x.ix)
    { g with waits := lo ++ [Waiting.mk (gkIx gk) none false] ++ hi, used := kset g.used (gkIx gk) w }

/-- What follows a failed save (15 R392), with the record posted by its DISP: the group flushes, or its context, and for
a seam member every context of the seam, is killed with STATUS 0x0131. -/
def State.saveDispose (s : State) (gk : Nat) (record : State → Nat → State) : State :=
  let s := match kget s.grids (gkGrid gk) with
    | some g => if s.sched.ckpt.run.getLsbD g.part then s.ckptFail else s
    | none => s
  let frame := match kget s.groups gk with
    | some r => match r.phase with | .saving f => [f] | _ => []
    | none => []
  if s.flushOk gk then
    ((record s 2).flushGroup gk).modGrid (gkGrid gk) fun g =>
      { g with frames := g.frames.filter fun f => !frame.contains f }
  else
    let s := record s 1
    match s.seamOf gk with
    | none => s.killGrid (gkGrid gk) 0x131
    | some (r, _) =>
      let gs := (s.grids.filter fun e => match e.2.seam with | some q => q.id == r.id | none => false).map (·.1)
      gs.foldl (fun s g => s.killGrid g 0x131) s

/-- A save fails at a warp in its handler (15 R392): cause 0x31, ORIGIN 4, DETAIL the underlying cause. -/
def State.saveFailed (s : State) (wk : Nat) (w : Warp) (t : TrapInfo) : State :=
  s.saveDispose w.gk fun s disp => s.recordOf wk w { t with cause := 0x31, origin := 4, detail := t.cause, lanes := 0 } disp

/-- The lowest-numbered warp of a group: index and key. -/
def State.lowWarp (s : State) (gk : Nat) : Option (Nat × Nat) := (kget s.groups gk).bind fun g => g.wks.head?

/-- The partition of a group's grid. -/
def State.groupPart (s : State) (gk : Nat) : Nat := match kget s.grids (gkGrid gk) with
  | some r => r.part
  | none => 0

/-- The record of a group names its lowest-numbered warp (15 R379); of a group with no resident warp, its first slot. -/
def State.recordGroup (s : State) (gk : Nat) (t : TrapInfo) (disp : Nat) : State :=
  match kget s.groups gk with
  | none => s
  | some g =>
    match s.lowWarp gk with
    | some (ix, wk) => s.postRecord (s.groupPart gk) (wkCore wk) fun seq drops =>
        trapBits t (gkGrid gk) (gkIx gk) ix (wkPos wk) (wkSlot wk) (wkCore wk) seq disp drops
    | none =>
      let c := g.cores.headD 0
      s.postRecord (s.groupPart gk) c fun seq drops => trapBits t (gkGrid gk) (gkIx gk) 0 0 ((g.slots.headD 0) % 16) c seq disp drops

/-- A condition of the scheduler about a group, as ORIGIN 3 with no instruction. -/
def TrapInfo.sched (cause detail va : Nat) : TrapInfo :=
  { cause := cause, origin := 3, detail := detail, aux := 0, lanes := 0, va := va, insn := { pc := 0, word := 0, ext := 0 } }

/-- RESUMESTAT of a group's partition takes a code, unless it holds a higher one (16 R414). -/
def State.resumeCode (s : State) (gk code : Nat) : State :=
  match kget s.grids (gkGrid gk) with
  | none => s
  | some g =>
    let x := s.mgmt.resumestat.toNat
    let old := bitsOf x (4 * g.part) 4
    { s with mgmt := { s.mgmt with resumestat := BitVec.ofNat 32 (x - old * 16 ^ g.part + max old code * 16 ^ g.part) } }

/-- An access of a frame by the device fails (16 R412): a save fails; a restore kills the grid, ORIGIN 3, DISP 1. -/
def State.frameFault (s : State) (gk cause detail va : Nat) : State :=
  match kget s.groups gk with
  | none => s
  | some g => match g.phase with
    | .saving _ => s.saveDispose gk fun s disp =>
        s.recordGroup gk { TrapInfo.sched 0x31 cause va with origin := 4 } disp
    | _ =>
      let s := (s.recordGroup gk (TrapInfo.sched cause detail va) 1).killGrid (gkGrid gk) (0x100 + cause)
      if s.mgmt.fromImage.contains gk then s.resumeCode gk 3 else s

/-- What a trap of a warp does at once: its record, when its context is killed for it. -/
def State.trapRecord (s : State) (wk : Nat) (t : TrapInfo) : State :=
  match kget s.warps wk with
  | none => s
  | some w => if isSup wk || w.handler then s else s.recordOf wk w t 1

/-- What follows a trap of a warp: a supervisor's resets its partition (15 R381); a save handler's fails the save (R392); any
other kills the warp's context (R382), with STATUS 0x0100 + cause. -/
def State.trapEffect (s : State) (wk : Nat) (t : TrapInfo) : State :=
  match kget s.warps wk with
  | none => s
  | some w =>
    if isSup wk then s.resetPart (gkGrid w.gk - 2 ^ 32)
    else if w.handler then s.saveFailed wk w t
    else s.killGrid (gkGrid w.gk) (0x100 + t.cause)

/-- TAKING A TRAP in a warp (15 R379 to R385; R98: the trapping instruction has no effect): its record and what follows.
Within an event at which several warps may trap, it is noted and taken with the others (15 R384). -/
def State.takeTrap (s : State) (wk : Nat) (t : TrapInfo) : State :=
  match s.ctl.traps with
  | some l => if l.any fun x => x.1 == wk then s else { s with ctl := { s.ctl with traps := some (l ++ [(wk, t)]) } }
  | none => (s.trapRecord wk t).trapEffect wk t

/-- A list of traps in ascending (core, slot, position), the order of the warps' keys. -/
def insertTrap (x : Nat × TrapInfo) : List (Nat × TrapInfo) → List (Nat × TrapInfo)
  | [] => [x]
  | y :: r => if x.1 < y.1 then x :: y :: r else y :: insertTrap x r

/-- The partition of a resident warp's context. -/
def State.partOf (s : State) (wk : Nat) : Option Nat := (kget s.warps wk).bind fun w =>
  if isSup wk then some (gkGrid w.gk - 2 ^ 32) else (kget s.grids (gkGrid w.gk)).map (·.part)

/-- Traps of one cycle: each warp's record, in ascending place, then what follows each (15 R384). Where one of them is a
supervisor's, its partition's reset wins: the partition's other traps have no record and no effect of their own (17 R429). -/
def State.takeTraps (s : State) (l : List (Nat × TrapInfo)) : State :=
  let resets := (l.filter fun x => isSup x.1).map fun x => s.partOf x.1
  let l := (l.filter fun x => isSup x.1 || !resets.contains (s.partOf x.1)).foldr insertTrap []
  let s := l.foldl (fun s x => s.trapRecord x.1 x.2) s
  l.foldl (fun s x => s.trapEffect x.1 x.2) s

/-- An event at which several warps may trap: their traps are taken together at its end. -/
def State.together (s : State) (f : State → State) : State :=
  match s.ctl.traps with
  | some _ => f s
  | none =>
    let s := f { s with ctl := { s.ctl with traps := some [] } }
    { s with ctl := { s.ctl with traps := none } }.takeTraps (s.ctl.traps.getD [])

/-- TAKING A TRAP on a mending core (15 R381): the record goes to offset 0x9000 of its SRAM, MCTRAP and MCPC report
it, and the core stops at the trapping instruction. The manual gives such a record no DISP and no place in a partition's
sequence: the model writes DISP, SEQ and DROPS as 0 (log 85). -/
def State.takeTrapMend (s : State) (m : Nat) (t : TrapInfo) : State :=
  s.modMend m fun c =>
    { c with sram := mwrite c.sram 0x9000 (leBytes 64 (trapBits t 0 0 0 0 0 0 0 0 0)),
             clause := none, pc := t.insn.hdr, resume := if t.insn.pc == t.insn.hdr then none else some t.insn.pc,
             halted := true, trapped := true, cause := BitVec.ofNat 8 t.cause, mcpc := BitVec.ofNat 32 t.insn.pc }

/-- Return from a trap on a mending core, and the undoing of a HALT (12 R361; 15 R381): at the next instruction
when the offset is all ones, else at the offset. TRAPPED is cleared. A core that is not halted ignores it. -/
def Mend.restart (c : Mend) (off : Word) : Mend :=
  if !c.halted then c
  else if off == 0xFFFFFFFF then { c with halted := false, trapped := false }
  else { c with halted := false, trapped := false, clause := none, resume := none, pc := off.toNat }

/-- A precise trap of the issuing agent at the instruction being issued. -/
def State.trapCur (s : State) (cause : Nat) (lanes : Lanes := 0) (va : Nat := 0) (detail : Nat := 0) : State :=
  let t := { TrapInfo.plain cause lanes s.ctl.insn with va := va, detail := detail }
  match s.ctl.cur with
  | some (.warp wk) => s.takeTrap wk t
  | some (.mend m) => s.takeTrapMend m t
  | none => s

/-- Trap causes (15 Table 15-1). -/
def cEncoding : Nat := 1
def cOperand : Nat := 2
def cConvergence : Nat := 3
def cPairing : Nat := 4
def cSticky : Nat := 5
def cPrivilege : Nat := 6
def cTarget : Nat := 7
def cTranslation : Nat := 0x10
def cProtection : Nat := 0x11
def cMisaligned : Nat := 0x12
def cExpired : Nat := 0x13
def cRevoked : Nat := 0x14
def cNodeLost : Nat := 0x15
def cPoolTimeout : Nat := 0x16
def cUncorrectable : Nat := 0x17
def cHostDown : Nat := 0x18
def cDeparted : Nat := 0x20
def cNotJoined : Nat := 0x21
def cRange : Nat := 0x22
def cUnsupported : Nat := 0x23
def cPlane : Nat := 0x24
def cKilled : Nat := 0x30
def cSave : Nat := 0x31

/-- A trap of the issuing agent as the answer of a meaning. -/
def trapRes (s : State) (cause : Nat) (lanes : Lanes := 0) (va : Nat := 0) (detail : Nat := 0) : Res :=
  .next (s.trapCur cause lanes va detail)

end Sys2Proof.Machine
end

