-- ==== Sys2Proof/Machine/Operands.lean ====
section
/-! DEFINITION. Register operands: which registers each instruction names (04 R110, R111; the instruction
descriptions), the checks of R39 and R111, the register waits of R99, reading and writing of sources and destinations,
and the effective addresses of class 4 (07 R189, R190). -/

namespace Sys2Proof.Machine

open Host

/-- A run of n registers from first, aligned to align; vec for vector registers (04 R111). -/
structure ROp where
  vec   : Bool
  first : Nat
  n     : Nat
  align : Nat
  deriving DecidableEq, Repr

/-- Vector and scalar runs whose first register is a multiple of their length. -/
def rv (r n : Nat) : ROp := { vec := true, first := r, n := n, align := n }
def rs (r n : Nat) : ROp := { vec := false, first := r, n := n, align := n }

/-- Registers of a value: two for a 64-bit type. -/
def regsOf (wide : Bool) : Nat := if wide then 2 else 1

/-- A class 2 or 3 source. -/
def vopnd (s : VSrc) (wide : Bool) : ROp :=
  match s with
  | .vec r _ => rv r.toNat (regsOf wide)
  | .scl r => rs r.toNat (regsOf wide)

def copnd (s : CSrc) (wide : Bool) : ROp :=
  match s with
  | .vec r => rv r.toNat (regsOf wide)
  | .scl r => rs r.toNat (regsOf wide)

def sopnds (b : SOpnd) (wide : Bool) : List ROp :=
  match b with
  | .reg r => [rs r.toNat (regsOf wide)]
  | .imm _ => []

/-- Element size of a class 4 type (07 R190). -/
def esize (ty : Nat) : Nat := if ty < 8 then 2 ^ (ty % 4) else if ty < 10 then 2 else if ty == 10 then 4 else 8

/-- Elements of an access: 1, 2 or 4 (07 R190). -/
def cntOf (cnt : BitVec 2) : Nat := 2 ^ cnt.toNat

/-- Registers of a class 4 run (07 R190). -/
def memRegs (ty : Nat) (cnt : BitVec 2) : Nat := cntOf cnt * regsOf (esize ty == 8)

/-- Base and index of a memory operand: a 64-bit base pair in device virtual space, one register otherwise. -/
def memOpnds (m : MemOpnd) (wide : Bool) : List ROp :=
  (if m.vb then rv m.a.toNat (regsOf wide) else rs m.a.toNat (regsOf wide)) ::
    (if m.ix then [rv m.b.toNat 1] else [])

/-- A data or destination run of class 4: vector in a warp, scalar on a mending core (07 R193). -/
def dataRun (mend : Bool) (r n : Nat) : ROp := if mend then rs r n else rv r n

/-- Whether a class 2 type has 64 bits. -/
def wide2 (ty : BitVec 4) : Bool := ty.toNat % 4 == 3

/-- Type code of a class 3 or 6 TYPE field (04 Table 4-10). -/
def code3 (ty : Nat) : Nat := ty + 8

/-- Registers of a scaled granule's values: 24 over lanes per granule (06 R185). -/
def granRegs (code : Nat) : Nat := if code == 17 then 6 else 3

def seedOpnd (rm : BitVec 3) (seed : SReg) : List ROp := if rm == 4 then [rs seed.toNat 1] else []

/-- Width of a ballot's result (06 R174). -/
def ballotRegs (width : Nat) : Nat := max 1 (width / 32)

/-- The registers that an instruction reads or writes, in a warp of a width or on a mending core. -/
def instrOpnds (i : Instr) (mend : Bool) (width : Nat) : List ROp :=
  match i with
  | .call link _ => [rv link.toNat 1]
  | .ret a _ => [rv a.toNat 1]
  | .jmpi a _ => [rv a.toNat 1]
  | .wany _ => [rs 0 1, rs 1 1]
  | .ebind _ a b => [rs a.toNat 1, rs b.toNat 1]
  | .emask op _ d => if op == 3 then [rs d.toNat 1] else []
  | .eclr rd d a => rs a.toNat 1 :: (if rd then [rs d.toNat 1] else [])
  | .sadd f d a b => let w := decide (3 ≤ f.toNat); rs d.toNat (regsOf w) :: rs a.toNat (regsOf w) :: sopnds b w
  | .ssub f d a b => let w := decide (3 ≤ f.toNat); rs d.toNat (regsOf w) :: rs a.toNat (regsOf w) :: sopnds b w
  | .smul f d a b => let w := f == 3; rs d.toNat (regsOf w) :: rs a.toNat (regsOf w) :: sopnds b w
  | .smad _ ty d a b c =>
    let n := regsOf (wide2 ty); [rs d.toNat n, rs a.toNat n, rs b.toNat n, rs c.toNat n]
  | .sdiv f d a b => let w := decide (4 ≤ f.toNat); rs d.toNat (regsOf w) :: rs a.toNat (regsOf w) :: sopnds b w
  | .slog _ d a b => rs d.toNat 1 :: rs a.toNat 1 :: sopnds b false
  | .sshf _ d a b => rs d.toNat 1 :: rs a.toNat 1 :: sopnds b false
  | .smin _ d a b => rs d.toNat 1 :: rs a.toNat 1 :: sopnds b false
  | .smax _ d a b => rs d.toNat 1 :: rs a.toNat 1 :: sopnds b false
  | .scmp _ _ _ a b => rs a.toNat 1 :: sopnds b false
  | .sjmp f d a _ => if f == 3 then [rs d.toNat 1] else if f == 4 then [rs a.toNat 1] else []
  | .smov d b => rs d.toNat 1 :: sopnds b false
  | .ssel _ d a b => rs d.toNat 1 :: rs a.toNat 1 :: sopnds b false
  | .simm d _ => [rs d.toNat 1]
  | .sld d a w _ _ => [rs d.toNat (regsOf w), rs a.toNat 2]
  | .sst d a w _ => [rs d.toNat (regsOf w), rs a.toNat 2]
  | .srdl d a _ => [rs d.toNat 1, rv a.toNat 1]
  | .scnt _ d a => [rs d.toNat 1, rs a.toNat 1]
  | .vadd d a b => [rv d.toNat 1, vopnd a false, vopnd b false]
  | .vsub d a b => [rv d.toNat 1, vopnd a false, vopnd b false]
  | .vmul d a b => [rv d.toNat 1, vopnd a false, vopnd b false]
  | .vdiv d a b => [rv d.toNat 1, vopnd a false, vopnd b false]
  | .vlog d a b => [rv d.toNat 1, vopnd a false, vopnd b false]
  | .vshf d a b => [rv d.toNat 1, vopnd a false, vopnd b false]
  | .vaddFx d a b ty _ => [rv d.toNat (regsOf (wide2 ty)), vopnd a (wide2 ty), vopnd b (wide2 ty)]
  | .vsubFx d a b ty _ => [rv d.toNat (regsOf (wide2 ty)), vopnd a (wide2 ty), vopnd b (wide2 ty)]
  | .vmulFx _ d a b ty _ => [rv d.toNat (regsOf (wide2 ty)), vopnd a (wide2 ty), vopnd b (wide2 ty)]
  | .vmad _ d a b c ty _ =>
    [rv d.toNat (regsOf (wide2 ty)), vopnd a (wide2 ty), vopnd b (wide2 ty), copnd c (wide2 ty)]
  | .vdivFx _ d a b ty => [rv d.toNat (regsOf (wide2 ty)), vopnd a (wide2 ty), vopnd b (wide2 ty)]
  | .vlogFx f d a b ty =>
    if f == 6 then [rv d.toNat (regsOf (wide2 ty)), vopnd a (wide2 ty)]
    else [rv d.toNat (regsOf (wide2 ty)), vopnd a (wide2 ty), vopnd b (wide2 ty)]
  | .vshfFx _ d a b ty => [rv d.toNat (regsOf (wide2 ty)), vopnd a (wide2 ty), vopnd b (wide2 ty)]
  | .vmin d a b ty => [rv d.toNat (regsOf (wide2 ty)), vopnd a (wide2 ty), vopnd b (wide2 ty)]
  | .vmax d a b ty => [rv d.toNat (regsOf (wide2 ty)), vopnd a (wide2 ty), vopnd b (wide2 ty)]
  | .vcmp _ _ a b ty => [vopnd a (wide2 ty), vopnd b (wide2 ty)]
  | .vsel _ _ z d a b w =>
    rv d.toNat (regsOf w) :: vopnd a w :: (if z then [] else [vopnd b w])
  | .vmov d a => [rv d.toNat 1, vopnd a false]
  | .vimm d _ => [rv d.toNat 1]
  | .vcnt _ d a ty => [rv d.toNat 1, vopnd a (wide2 ty)]
  | .vbfx d a _ _ _ => [rv d.toNat 1, vopnd a false]
  | .vbfi d a b _ _ _ => [rv d.toNat 1, vopnd a false, vopnd b false]
  | .vshuf _ d a b ty => [rv d.toNat (regsOf (wide2 ty)), vopnd a (wide2 ty), vopnd b false]
  | .vvote f d _ _ => [rs d.toNat (if f == 2 then ballotRegs width else 1)]
  | .vscan _ d a _ ty _ _ => [rv d.toNat (regsOf (wide2 ty)), rv a.toNat (regsOf (wide2 ty))]
  | .vred _ d a _ ty _ => [rv d.toNat (regsOf (wide2 ty)), rv a.toNat (regsOf (wide2 ty))]
  | .vfadd d a b => [rv d.toNat 1, vopnd a false, vopnd b false]
  | .vfmul d a b => [rv d.toNat 1, vopnd a false, vopnd b false]
  | .vfaddFx _ d a b ty _ => let w := ty == 3; [rv d.toNat (regsOf w), vopnd a w, vopnd b w]
  | .vfmulFx d a b ty _ => let w := ty == 3; [rv d.toNat (regsOf w), vopnd a w, vopnd b w]
  | .vfma _ d a b c ty _ => let w := ty == 3; [rv d.toNat (regsOf w), vopnd a w, vopnd b w, copnd c w]
  | .vfmin d a b ty => let w := ty == 3; [rv d.toNat (regsOf w), vopnd a w, vopnd b w]
  | .vfmax d a b ty => let w := ty == 3; [rv d.toNat (regsOf w), vopnd a w, vopnd b w]
  | .vfcmp _ _ a b ty => let w := ty == 3; [vopnd a w, vopnd b w]
  | .vfcls d a ty => [rv d.toNat 1, vopnd a (ty == 3)]
  | .vfcvt d a _ dst src rm seed _ =>
    rv d.toNat (regsOf (typeBits dst.toNat == 64)) :: rv a.toNat (regsOf (typeBits src.toNat == 64)) :: seedOpnd rm seed
  | .vfcvtPack d a _ dst rm seed _ =>
    rv d.toNat 1 :: { vec := true, first := a.toNat, n := granRegs dst.toNat, align := 1 } :: seedOpnd rm seed
  | .vfcvtUnpack d a _ src _ _ => [{ vec := true, first := d.toNat, n := granRegs src.toNat, align := 1 }, rv a.toNat 1]
  | .vrcp d a => [rv d.toNat 1, vopnd a false]
  | .vrsq d a => [rv d.toNat 1, vopnd a false]
  | .vexp2 d a => [rv d.toNat 1, vopnd a false]
  | .vlog2 d a => [rv d.toNat 1, vopnd a false]
  | .vrcpFx d a ty _ => [rv d.toNat (regsOf (ty == 3)), vopnd a (ty == 3)]
  | .vrsqFx d a ty _ => [rv d.toNat (regsOf (ty == 3)), vopnd a (ty == 3)]
  | .vexp2Fx d a _ _ => [rv d.toNat 1, vopnd a false]
  | .vlog2Fx d a _ _ => [rv d.toNat 1, vopnd a false]
  | .vsincos d c a _ _ => [rv d.toNat 1, rv c.toNat 1, vopnd a false]
  | .vdot d a b c ty _ => let w := ty == 0 || ty == 1; [rv d.toNat 1, vopnd a w, vopnd b w, copnd c false]
  | .vscl d a b ty _ => let w := ty == 3; [rv d.toNat (regsOf w), vopnd a w, vopnd b false]
  | .ld d cnt m _ ty _ => dataRun mend d.toNat (memRegs ty.toNat cnt) :: memOpnds m true
  | .st d cnt m _ ty _ => dataRun mend d.toNat (memRegs ty.toNat cnt) :: memOpnds m true
  | .ldb d cnt m _ ty _ => dataRun mend d.toNat (memRegs ty.toNat cnt) :: memOpnds m true
  | .lds d cnt _ _ m _ ty _ => rv d.toNat (memRegs ty.toNat cnt) :: memOpnds m false
  | .sts d cnt _ _ m _ ty _ => rv d.toNat (memRegs ty.toNat cnt) :: memOpnds m false
  | .atom f d m c ty _ _ noret sd _ =>
    let n := regsOf (esize ty.toNat == 8)
    let k := if f == 7 then 2 * n else n
    (if noret then [] else [dataRun mend d.toNat n]) ++ (if sd then rs c.toNat k else rv c.toNat k) :: memOpnds m true
  | .atoms f d m c ty sd _ _ _ =>
    let n := regsOf (esize ty.toNat == 8)
    let k := if f == 7 then 2 * n else n
    rv d.toNat n :: (if sd then rs c.toNat k else rv c.toNat k) :: memOpnds m false
  | .wadr d _ m _ _ _ => dataRun mend d.toNat 2 :: memOpnds m true
  | .pref _ m _ _ => memOpnds m true
  | .cpx a b c => [rs a.toNat 2, rs b.toNat 4, rs c.toNat 2]
  | .cgatIdx a b _ => [rs a.toNat 2, rs b.toNat 1]
  | .cgatRow d a b c _ _ => [rs d.toNat 2, rs a.toNat 2, rs b.toNat 1, rs c.toNat 1]
  | .csct d a b c _ _ => [rs d.toNat 2, rs a.toNat 2, rs b.toNat 1, rs c.toNat 1]
  | .cred _ d a b _ _ _ => [rs d.toNat 2, rs a.toNat 2, rs b.toNat 1]
  | .cseal cw _ d a => if cw then [rs d.toNat 2, rs a.toNat 2] else []
  | .turn a _ => [rs a.toNat 2]
  | .lnopen d a b c => [rs d.toNat 2, rs a.toNat 2, rs b.toNat 2, rs c.toNat 1]
  | .lnopenClose d => [rs d.toNat 2]
  | .pfoldFetch a b c => [rs a.toNat 1, rs b.toNat 1, rs c.toNat 1]
  | .pfoldInstall a => [rs a.toNat 1]
  | .pfoldRelease a b c => [rs a.toNat 1, rs b.toNat 1, rs c.toNat 1]
  | .foldx a => [rs a.toNat 1]
  | .landarm a => [rs a.toNat 1]
  | .tld _ a b _ _ _ _ _ _ => [rs a.toNat 2, rs b.toNat 1]
  | .tst _ a b _ _ => [rs a.toNat 2, rs b.toNat 1]
  | .tmovVt _ a _ b _ n _ _ _ _ _ => [rv a.toNat (2 ^ n.toNat), rs b.toNat 1]
  | .tmovTv d _ b n _ _ => [rv d.toNat (2 ^ n.toNat), rs b.toNat 1]
  | .sread d sel => if sel == 0 then [rv d.toNat 1] else [rs d.toNat 1]
  | .csrr d c => [rs d.toNat (regsOf (c == 0x010 || c == 0x011 || c == 0x023 || c == 0x024))]
  | .csrw a c => [rs a.toNat (regsOf (c == 0x010 || c == 0x011 || c == 0x023 || c == 0x024))]
  | .svreq a _ => [rs a.toNat 8]
  | .mbxSend d a _ => [rs d.toNat 1, rs a.toNat 16]
  | .mbxRecv d c _ => [rs d.toNat 16, rs c.toNat 1]
  | .pginvPage a _ => [rs a.toNat 2]
  | .leaseopRd d a _ => [rs d.toNat 4, rs a.toNat 1]
  | .leaseopWr a b _ => [rs a.toNat 1, rs b.toNat 4]
  | .demnext d => [rs d.toNat 1]
  | _ => []

/-- Range and alignment of a run (02 R39; 04 R111); held is 0 on a mending core (04 R118). -/
def ROp.ok (held : Nat) (o : ROp) : Bool :=
  o.first % o.align == 0 && decide (o.first + o.n ≤ if o.vec then held else 64)

/-- A run of 64-bit elements with count 4 is not a legal run (07 R190). -/
def memRunOk : Instr → Bool
  | .ld _ cnt _ _ ty _ => memRegs ty.toNat cnt < 8
  | .st _ cnt _ _ ty _ => memRegs ty.toNat cnt < 8
  | .ldb _ cnt _ _ ty _ => memRegs ty.toNat cnt < 8
  | .lds _ cnt _ _ _ _ ty _ => memRegs ty.toNat cnt < 8
  | .sts _ cnt _ _ _ _ ty _ => memRegs ty.toNat cnt < 8
  | .wadr _ cnt _ _ ty _ => memRegs ty.toNat cnt < 8
  | .pref cnt _ _ ty => memRegs ty.toNat cnt < 8
  | _ => true

/-- The ILLEGAL_OPERAND checks of register ranges and runs (04 R116 step 3). -/
def opndsOk (i : Instr) (mend : Bool) (width held : Nat) : Bool :=
  memRunOk i && (instrOpnds i mend width).all (ROp.ok held)

/-! ### Outstanding writes (04 R99) -/

/-- The register file an access in flight writes: some true for vector registers. -/
def Acc.dest : Acc → Option Bool
  | .load _ _ vec => some vec
  | .atom _ _ noret vec _ _ => if noret then none else some vec
  | .probe => some true
  | .leaseRd _ => some false
  | _ => none

/-- Whether an access in flight writes a register of a run. -/
def Op.writes (o : Op) (r : ROp) : Bool :=
  match o.kind with
  | .acc a =>
    match a.dest with
    | some vec => vec == r.vec && o.elems.any fun e =>
        decide (e.reg < r.first + r.n) && decide (r.first < e.reg + regsOf (e.n == 8))
    | none => false
  | .async .. => false

/-- Whether a matrix entry writes a vector register of a run (TMOV to vector, 09 R287). -/
def MEnt.writes (e : MEnt) (r : ROp) : Bool :=
  match e.work with
  | .tmovTv _ _ dst => r.vec && dst.any fun d => decide (r.first ≤ d.1) && decide (d.1 < r.first + r.n)
  | _ => false

/-- Whether a variable-latency write of an issuer to one of the runs is outstanding. -/
def State.opPending (s : State) (who : Who) (l : List ROp) : Bool :=
  s.ops.any fun e => e.2.who == who && l.any e.2.writes

/-- The same over a group's matrix queue. -/
def State.mqPending (s : State) (wk gk : Nat) (l : List ROp) : Bool :=
  match kget s.groups gk with
  | none => false
  | some g => g.mq.any fun e => e.wk == wk && l.any e.writes

/-- The register wait of R99: another instruction of the warp has an unlanded write to a register it names. -/
def State.regWait (s : State) (wk : Nat) (w : Warp) (l : List ROp) : Bool :=
  s.opPending (.warp wk) l || s.mqPending wk w.gk l

/-! ### The guard of every instruction of registers -/

/-- Runs a meaning on the issuing warp once its operands pass R111 and R39, and no write to them is outstanding. A mending
core does not have the instruction (01 R13). -/
def warpOp (i : Instr) (s : State) (k : Nat → Warp → ClausePos → Res) : Res :=
  match s.ctl.cur with
  | some (.mend _) => onMend s fun _ _ _ => trapRes s cEncoding
  | _ => onWarp s fun wk w c =>
    if !opndsOk i false w.width w.held then trapRes s cOperand c.act
    else if s.regWait wk w (instrOpnds i false w.width) then waitRetry s
    else k wk w c

/-- Whether the class 4 fields that name scalar registers on a mending core have bit 6 zero (07 R193; 04 R116 step 1). C
of an ATOM without SD is taken as such a field, though R118 reads it as a vector register (log 107). -/
def mendFields (i : Instr) : Bool := match i with
  | .ld d .. => d.toNat < 64
  | .ldb d .. => d.toNat < 64
  | .st d .. => d.toNat < 64
  | .wadr d .. => d.toNat < 64
  | .atom _ d _ c .. => decide (d.toNat < 64) && decide (c.toNat < 64)
  | _ => true

/-- The same on the issuing mending core (04 R118; 07 R193). -/
def mendOp (i : Instr) (s : State) (k : Nat → Mend → ClausePos → Res) : Res :=
  onMend s fun m x c =>
    if !mendFields i then trapRes s cEncoding
    else if !opndsOk i true 1 0 then trapRes s cOperand
    else if s.opPending (.mend m) (instrOpnds i true 1) then waitRetry s
    else k m x c

/-- Either, by the kind of the issuing agent. -/
def agentOp (i : Instr) (s : State) (f : Nat → Warp → ClausePos → Res) (g : Nat → Mend → ClausePos → Res) : Res :=
  match s.ctl.cur with
  | some (.mend _) => mendOp i s g
  | _ => warpOp i s f

/-- An instruction of the memory class that a mending core does not have (07 R193). -/
def bankOp (i : Instr) (s : State) (k : Nat → Warp → ClausePos → Res) : Res :=
  match s.ctl.cur with
  | some (.mend _) => onMend s fun _ _ _ => trapRes s cOperand
  | _ => warpOp i s k

/-! ### Scalar registers -/

/-- A scalar, or a pair with the low half in the even register (02 R38). -/
def sval (r : Regs) (wide : Bool) (i : Nat) : Nat :=
  if wide then (rget r i).toNat + 2 ^ 32 * (rget r (i + 1)).toNat else (rget r i).toNat

/-- Writes a scalar or a pair. -/
def sput (r : Regs) (wide : Bool) (i x : Nat) : Regs :=
  if wide then rset (rset r i (BitVec.ofNat 32 x)) (i + 1) (BitVec.ofNat 32 (x / 2 ^ 32))
  else rset r i (BitVec.ofNat 32 x)

/-- The second operand of an FS word (06 R160): IMM9 is sign-extended to the form's width. -/
def bval (r : Regs) (wide : Bool) (b : SOpnd) : Nat :=
  match b with
  | .reg i => sval r wide i.toNat
  | .imm k => wrapInt (if wide then 64 else 32) k.toInt

/-- The part of a warp or mending core that scalar instructions read and write. -/
structure SCtx where
  s  : Regs
  q  : BitVec 4
  fl : Word
  deriving DecidableEq, Repr

def SCtx.put (x : SCtx) (wide : Bool) (i v : Nat) : SCtx := { x with s := sput x.s wide i v }
def SCtx.setQ (x : SCtx) (i : Nat) (b : Bool) : SCtx := { x with q := setq x.q i b }
def SCtx.flag (x : SCtx) (f : Nat) : SCtx := { x with fl := x.fl ||| BitVec.ofNat 32 f }
def Warp.sctx (w : Warp) : SCtx := { s := w.s, q := w.q, fl := w.aflags }
def Warp.withSctx (w : Warp) (x : SCtx) : Warp := { w with s := x.s, q := x.q, aflags := x.fl }
def Mend.sctx (m : Mend) : SCtx := { s := m.s, q := m.q, fl := m.aflags }
def Mend.withSctx (m : Mend) (x : SCtx) : Mend := { m with s := x.s, q := x.q, aflags := x.fl }

/-- A scalar instruction of a warp or a mending core that goes on to the next instruction (06 R146, R160). -/
def scalarOp (i : Instr) (s : State) (f : SCtx → SCtx) : Res :=
  agentOp i s (fun wk w c => doneWarp s wk (w.withSctx (f w.sctx)) c)
    (fun m x c => doneMend s m (x.withSctx (f x.sctx)) c)

/-! ### Vector sources and destinations -/

/-- A vector register or pair of a lane. -/
def Warp.vval (w : Warp) (wide : Bool) (r l : Nat) : Nat :=
  if wide then (w.vget r l).toNat + 2 ^ 32 * (w.vget (r + 1) l).toNat else (w.vget r l).toNat

/-- Writes a vector register or pair of a lane. -/
def Warp.vput (w : Warp) (wide : Bool) (r l x : Nat) : Warp :=
  if wide then (w.vset r l (BitVec.ofNat 32 x)).vset (r + 1) l (BitVec.ofNat 32 (x / 2 ^ 32))
  else w.vset r l (BitVec.ofNat 32 x)

/-- The value of a source in a lane (06 R168): a scalar is broadcast. -/
def Warp.src (w : Warp) (wide : Bool) (v : VSrc) (l : Nat) : Nat :=
  match v with
  | .vec r _ => w.vval wide r.toNat l
  | .scl r => sval w.s wide r.toNat

def Warp.csrc (w : Warp) (wide : Bool) (v : CSrc) (l : Nat) : Nat :=
  match v with
  | .vec r => w.vval wide r.toNat l
  | .scl r => sval w.s wide r.toNat

/-- Writes one destination in each lane of a list; the values are those of the register file before (06 R146). -/
def Warp.putLanes (w : Warp) (wide : Bool) (d : Nat) (ls : List Nat) (f : Nat → Nat) : Warp :=
  ls.foldl (fun x l => x.vput wide d l (f l)) w

/-- Flags of the active lanes, ORed (05 R143). -/
def flagsOf (ls : List Nat) (f : Nat → Nat) : Nat := ls.foldl (fun a l => a ||| f l) 0

/-- A lane-wise instruction with destination d: values and flags of each active lane (06 R146; 05 R143). -/
def vecOp (i : Instr) (s : State) (wide : Bool) (d : Nat) (f : Warp → Nat → Nat × Nat) : Res :=
  warpOp i s fun wk w c =>
    let ls := lanesOf c.act
    let r := (w.putLanes wide d ls fun l => (f w l).1).flag (flagsOf ls fun l => (f w l).2)
    doneWarp s wk r c

/-- The lanes of a list for which a condition holds, as a mask. -/
def maskOf (ls : List Nat) (f : Nat → Bool) : Lanes := lanesMask (ls.filter f)

/-- A lane-wise comparison into predicate p (06 R169, R181). -/
def cmpOp (i : Instr) (s : State) (p : Nat) (f : Warp → Nat → Bool × Nat) : Res :=
  warpOp i s fun wk w c =>
    let ls := lanesOf c.act
    let r := (w.setPred p c.act (maskOf ls fun l => (f w l).1)).flag (flagsOf ls fun l => (f w l).2)
    doneWarp s wk r c

/-! ### Effective addresses (07 R189) -/

/-- Index of a lane times its scale. -/
def memIndex (m : MemOpnd) (w : Warp) (l : Nat) : Int :=
  if m.ix then (if m.iu then ((w.vget m.b.toNat l).toNat : Int) else (w.vget m.b.toNat l).toInt) * 2 ^ m.sc.toNat else 0

/-- ea of a lane: 64-bit for device virtual space, 32-bit for scratchpad and seam window (07 R189). -/
def memEa (m : MemOpnd) (w : Warp) (wide : Bool) (off : VReg) (size l : Nat) : Nat :=
  let base := if m.vb then w.vval wide m.a.toNat l else sval w.s wide m.a.toNat
  wrapInt (if wide then 64 else 32) (base + memIndex m w l + off.toInt * size)

/-- ea of the one lane of a mending core (07 R193). -/
def memEaMend (m : MemOpnd) (r : Regs) (off : VReg) (size : Nat) : Nat :=
  wrapInt 64 (sval r true m.a.toNat + off.toInt * size)

end Sys2Proof.Machine
end

