-- ==== Sys2Proof/Machine/Memory.lean ====
section
/-! DEFINITION. Homes and translation (03 R60 to R74; 08 R245 to R249; 11 R325, R333, R339; 16 R408): page-table walks, permission, places, the L1, access counters and demand records (03 R75 to R77). -/

namespace Sys2Proof.Machine

open Host

/-! ### Scratchpad (03 R87, R88) -/

/-- Word index after a swizzle mode (03 Table 3-13). -/
def swizzle (mode w : Nat) : Nat :=
  let lo := w % 32
  let h1 := bitsOf w 5 5
  let x := match mode with
    | 0 => lo
    | 1 => lo ^^^ h1
    | 2 => lo ^^^ bitsOf w 6 5
    | _ => (lo + h1 + bitsOf w 10 5) % 32
  w / 32 * 32 + x

/-- Scratchpad offset of a byte after relocation of its word. -/
def swzByte (mode a : Nat) : Nat := swizzle mode (a / 4) * 4 + a % 4

/-! ### Contexts -/

/-- Fields of PTROOT, and of the records that hold one, that a write reaches: the others read as zero (03 Table 3-3). -/
def ptrootMask : Nat := packFields [(1, 1), (0, 11), (2 ^ 33 - 1, 33), (0, 3), (2 ^ 16 - 1, 16)]

/-- What translation needs of a context: its root, partition and NFOLD (03 R63, R81). -/
structure CtxInfo where
  root  : DWord
  part  : Nat
  nfold : Nat
  deriving DecidableEq, Repr

/-- The context of a number: a grid, a partition's supervisors, a host window or a queue. The manual gives FOLDBASE to
grids alone: NFOLD of the other contexts is 0 (log 79). -/
def State.ctxInfo (s : State) (ctx : Nat) : Option CtxInfo :=
  if 2 ^ 34 ≤ ctx then
    let q := s.queue (ctx - 2 ^ 34)
    some { root := q.ptroot, part := q.part.toNat, nfold := 0 }
  else if 2 ^ 33 ≤ ctx then
    (kget s.host.wins (ctx - 2 ^ 33)).map fun w => { root := w.ptroot, part := w.part.toNat, nfold := 0 }
  else if 2 ^ 32 ≤ ctx then some { root := (s.part (ctx - 2 ^ 32)).svroot, part := ctx - 2 ^ 32, nfold := 0 }
  else (kget s.grids ctx).map fun g => { root := g.ptroot, part := g.part, nfold := bitsOf g.foldbase.toNat 0 12 }

/-- GRID of a record: the grid id; all ones for a queue; 0 for the other contexts (log 13). -/
def ctxGrid (ctx : Nat) : Nat := if ctx < 2 ^ 32 then ctx else if 2 ^ 34 ≤ ctx then 0xFFFFFFFF else 0

/-! ### Leaves and walks (03 R62 to R65) -/

def leafV (l : DWord) : Bool := l.getLsbD 0
def leafRd (l : DWord) : Bool := l.getLsbD 1
def leafW (l : DWord) : Bool := l.getLsbD 2
def leafX (l : DWord) : Bool := l.getLsbD 3
def leafSize (l : DWord) : Bool := l.getLsbD 4
def leafCarve (l : DWord) : Bool := l.getLsbD 5
def leafFold (l : DWord) : Nat := bitsOf l.toNat 6 12
def leafPage (l : DWord) : Nat := bitsOf l.toNat 18 14
def leafLease (l : DWord) : Nat := bitsOf l.toNat 32 15
def leafPeer (l : DWord) : Nat := bitsOf l.toNat 47 14
def leafMode (l : DWord) : Nat := bitsOf l.toNat 61 2
def leafPressed (l : DWord) : Bool := l.getLsbD 63

/-- A malformed leaf (03 R65), big when it was found in a level-0 table. -/
def leafBad (nfold : Nat) (big : Bool) (l : DWord) : Bool :=
  (leafSize l != big) ||
  (leafPressed l && (leafMode l != 0 || leafW l || leafCarve l)) ||
  (leafCarve l && (leafMode l == 3 || leafLease l != 0)) ||
  (big && (leafPage l % 32 != 0 || leafFold l != 0)) ||
  decide (nfold < leafFold l)

/-- A malformed table pointer (03 R63, R65); one that leads to a 4 KiB table has TABLE bits 3:0 zero. -/
def ptrBad (toLeaf : Bool) (e : Nat) : Bool :=
  bitsOf e 45 19 != 0 || bitsOf e 6 2 != 0 || bitsOf e 1 4 != 0 || (!toLeaf && bitsOf e 8 4 != 0)

/-- What translation finds: a leaf, or the reason of a demand event, and whether the walk itself could not read. -/
inductive Xlat where
  | leaf (l : DWord) (big : Bool)
  | event (reason : Nat) (walk : Bool)
  deriving DecidableEq, Repr

/-- Whether a table in local physical memory can be read (03 R75). -/
def MemSys.tableReason (m : MemSys) (carve : Bool) (a : Nat) : Option Nat :=
  if carve then none else leaseReason (m.leaseAt a)

/-- The forward of a page, if any (11 R338). -/
def MemSys.forward (m : MemSys) (a : Nat) : Option Forward := m.fwds.find? fun f => f.page == a / 65536

/-- A table entry: of a page under a forward, what its new home has answered (11 R338). -/
def MemSys.entry (m : MemSys) (carve : Bool) (a : Nat) : Nat :=
  if !carve && (m.forward a).isSome then kgetD m.farEnts a 0 else m.num carve a 8

/-- The walk from a table (03 Table 3-2): lo lists the lowest index bit of each level that remains. -/
def MemSys.walk (m : MemSys) (nfold va : Nat) : List Nat → Bool → Nat → Xlat
  | [], _, _ => .event 3 false
  | lo :: rest, carve, base =>
    match m.tableReason carve base with
    | some r => .event r true
    | none =>
      let leaf := rest == []
      let e := m.entry carve (base + 8 * bitsOf va lo (if leaf then 5 else 9))
      if !bitAt e 0 then .event 0 false
      else if leaf || (lo == 21 && bitAt e 4) then
        if leafBad nfold (!leaf) (BitVec.ofNat 64 e) then .event 3 false else .leaf (BitVec.ofNat 64 e) (!leaf)
      else if ptrBad (lo == 21) e then .event 3 false
      else m.walk nfold va rest (bitAt e 5) (bitsOf e 8 37 * 256)

/-- Translation by the tables of a context (03 R62). -/
def State.walkCtx (s : State) (ctx va : Nat) : Xlat :=
  match s.ctxInfo ctx with
  | none => .event 0 false
  | some c => s.mem.walk c.nfold va [48, 39, 30, 21, 16] (c.root.getLsbD 0) (bitsOf c.root.toNat 12 33 * 4096)

/-- Whether the home of a table entry in local memory does not have it ready: its page is under a forward and its new home has
not answered, else its page is under a hold, its sector is not valid or is lost, or the host holds its line. -/
def MemSys.notReady (m : MemSys) (held : Nat → Bool) (a : Nat) : Bool :=
  let x := m.sec (a / 4096)
  match m.forward a with
  | some _ => !khas m.farEnts a
  | none => held a || !x.valid || x.lost || m.hostLines.contains (a / 128 * 2) || m.hostLines.contains (a / 128 * 2 + 1)

/-- The first entry on a walk that its home does not have ready; held says which pages a migration hold stops. lo lists the
lowest index bit of each level that remains. -/
def MemSys.walkStop (m : MemSys) (held : Nat → Bool) (va : Nat) : List Nat → Bool → Nat → Option Nat
  | [], _, _ => none
  | lo :: rest, carve, base =>
    match m.tableReason carve base with
    | some _ => none
    | none =>
      let leaf := rest == []
      let a := base + 8 * bitsOf va lo (if leaf then 5 else 9)
      if !carve && m.notReady held a then some a
      else
        let e := m.entry carve a
        if !bitAt e 0 || leaf || (lo == 21 && bitAt e 4) || ptrBad (lo == 21) e then none
        else m.walkStop held va rest (bitAt e 5) (bitsOf e 8 37 * 256)

/-- Bytes of a page. -/
def pageBytes (big : Bool) : Nat := if big then 2 ^ 21 else 2 ^ 16

/-- The cached translation of an address, if any (03 R68). -/
def State.cached (s : State) (ctx va : Nat) : Option TlbEnt :=
  s.mem.tlb.find? fun e => e.ctx == ctx && e.va == va / pageBytes e.big

/-- Translation (03 R68): an access may use a cached entry that differs from the tables; the choice of the step
decides (log 1). -/
def State.xlat (s : State) (ctx va : Nat) : Xlat :=
  match s.cached ctx va with
  | none => s.walkCtx ctx va
  | some e => if s.choice % 2 == 1 then .leaf e.leaf e.big else s.walkCtx ctx va

/-- Whether a page is under the migration hold of a mending core (11 R338). -/
def State.pageHeld (s : State) (a : Nat) : Bool := s.mends.any fun m => match m.2.mig with
  | some h => h.page == a / 65536
  | none => false

/-- The table entry that a translation waits for, when it walks: the home of an entry that is not ready (03 R72; 08 R257);
free is set for a mending core, which no migration hold stops (07 R194). -/
def State.walkWaits (s : State) (ctx va : Nat) (free : Bool := false) : Option Nat :=
  if (s.cached ctx va).isSome && s.choice % 2 == 1 then none
  else match s.ctxInfo ctx with
    | none => none
    | some c => s.mem.walkStop (fun a => !free && s.pageHeld a) va [48, 39, 30, 21, 16] (c.root.getLsbD 0) (bitsOf c.root.toNat 12 33 * 4096)

/-- Caches a translation; one entry a page and context. -/
def State.keepXlat (s : State) (ctx va : Nat) (x : Xlat) : State :=
  match x with
  | .leaf l big =>
    let old := s.mem.tlb.filter fun e => !(e.ctx == ctx && e.va == va / pageBytes e.big)
    let own := match leafCarve l && (leafMode l == 0 || leafPeer l == s.mgmt.peernum.toNat), s.ctxInfo ctx with
      | true, some c => kset s.mem.carveOwn (leafPage l + va % pageBytes big / 65536) c.part
      | _, _ => s.mem.carveOwn
    { s with mem := { s.mem with tlb := { ctx := ctx, va := va / pageBytes big, big := big, leaf := l } :: old, carveOwn := own } }
  | .event _ _ => s

/-! ### Permission and place -/

/-- Permission of an access kind (03 R66, Table 3-8 KIND): 0 load, 1 store, 2 atomic, 3 fetch, 4 TLD, 5 TST, 6 copy
read, 7 copy write, 8 prefetch, 9 landing write. 11 is no KIND: it stands for what needs a translation and no permission,
the prefetch engine's release and the first front page of a lining (03 R84; 07 R223). -/
def permOk (kind : Nat) (l : DWord) : Bool :=
  match kind with
  | 1 => leafW l
  | 5 => leafW l
  | 7 => leafW l
  | 9 => leafW l
  | 2 => leafRd l && leafW l
  | 3 => leafX l
  | 11 => true
  | _ => leafRd l

/-- Where the byte at a virtual address lives (03 R67, R69; 11 R325). A carve page of this device in direct mode is named as
a peer's, since no L1 holds it; homePlace leads to its home. -/
def State.placeOf (s : State) (ctx : Nat) (l : DWord) (big : Bool) (va : Nat) : Place :=
  let off := va % pageBytes big
  let a := leafLease l * 2 ^ 30 + leafPage l * 2 ^ 16 + off
  let own := leafPeer l == s.mgmt.peernum.toNat
  if leafMode l == 0 then
    if leafCarve l then .carve (leafPage l * 2 ^ 16 + off)
    else .loc a (if leafPressed l then .pressed else .loc)
  else if leafCarve l then
    if own && leafMode l == 2 then .carve (leafPage l * 2 ^ 16 + off)
    else .peer (leafPeer l) (leafPage l * 2 ^ 16 + off) true (leafMode l == 2)
  else if own then
    let hap := match s.ctxInfo ctx with
      | some c => (s.part c.part).hapbase.toNat
      | none => 0
    .host (hap * 2 ^ 45 + a) (leafMode l == 2)
  else .peer (leafPeer l) a false (leafMode l == 2)

/-- The home that a place with this device's own peer number names (03 R69; 07 R194). -/
def State.homePlace (s : State) (p : Place) : Place :=
  match p with
  | .peer n a c _ => if n == s.mgmt.peernum.toNat then (if c then .carve a else .loc a .loc) else p
  | _ => p

/-- Outcome of the checks of one address: its place and leaf, a permission failure, or a wanted demand event. -/
inductive Chk where
  | ok (p : Place) (l : DWord) (big : Bool)
  | prot
  | event (w : Wish)
  deriving DecidableEq, Repr

/-- The region side that an access to the front region of an open lining uses (07 R224). -/
def State.lined (s : State) (ctx va : Nat) (wr : Bool) : Nat :=
  match kget s.grids ctx with
  | none => va
  | some g =>
    match g.linings.find? fun e => decide (e.2.front ≤ va) && decide (va < e.2.front + e.2.npages * 2 ^ 16) with
    | none => va
    | some (_, l) => if (l.side != wr) then va - l.front + l.back else va

/-- Whether an address lies in the front region of an open lining of a context (07 R224). -/
def State.inFront (s : State) (ctx va : Nat) : Bool :=
  match kget s.grids ctx with
  | none => false
  | some g => g.linings.any fun e => decide (e.2.front ≤ va) && decide (va < e.2.front + e.2.npages * 2 ^ 16)

/-- R60, R66, translation and backing of one address (03 R60, R66, R75). -/
def State.check (s : State) (ctx kind : Nat) (wr : Bool) (va0 : Nat) : Chk :=
  if 2 ^ 57 ≤ va0 then .prot
  else
    let va := s.lined ctx va0 wr
    match s.xlat ctx va with
    | .event r w => .event { reason := r, kind := if w then 10 else kind, va := va }
    | .leaf l big =>
      if !permOk kind l then .prot
      else if leafMode l == 0 && !leafCarve l then
        match leaseReason (kgetD s.mem.leases (leafLease l) Lease.reset) with
        | some r => .event { reason := r, kind := kind, va := va }
        | none => .ok (s.placeOf ctx l big va) l big
      else .ok (s.placeOf ctx l big va) l big

/-! ### The L1 (08 R248, R249) -/

/-- Key of the 32-byte sector of a place that an L1 may hold. -/
def l1Key : Place → Option Nat
  | .loc a _ => some (a / 32)
  | .carve a => some (2 ^ 41 + a / 32)
  | .peer n a c true => some ((2 * n + 2 + c.toNat) * 2 ^ 41 + a / 32)
  | .host a true => some (2 ^ 60 + a / 32)
  | _ => none

/-- Byte of a place within its 32-byte sector. -/
def l1Off : Place → Nat
  | .loc a _ => a % 32
  | .carve a => a % 32
  | .peer _ a _ _ => a % 32
  | .host a _ => a % 32
  | _ => 0

/-- Kind of an L1 sector of a place. -/
def l1KindOf : Place → L1Kind
  | .loc _ k => k
  | .peer .. => .peer
  | .host .. => .host
  | _ => .loc

/-- The key of the copies of a place, whatever mode reached it. -/
def l1Copy : Place → Option Nat
  | .peer n a c _ => l1Key (.peer n a c true)
  | .host a _ => l1Key (.host a true)
  | p => l1Key p

/-- The sector of the front region of an open lining that an address lies in, if any (08 R260). -/
def State.frontOf (s : State) (ctx va : Nat) : Option (Nat × Nat) := if s.inFront ctx va then some (ctx, va / 32) else none

/-- The sector that serves a read of a place: for the front region of a lining the one that was filled through it, from
whichever side, else the one that holds the place (08 R248, R260). -/
def Core.l1Look (c : Core) (front : Option (Nat × Nat)) (k : Nat) : Option L1Sec :=
  match front with
  | none => kget c.l1 k
  | some f => match c.l1.find? fun x => x.2.front == some f with
    | some x => some x.2
    | none => kget c.l1 k

/-- What the L1 of a core holds of n bytes. -/
def Core.l1Read (c : Core) (front : Option (Nat × Nat)) (p : Place) (n : Nat) : Option DWord :=
  match l1Key p with
  | none => none
  | some k => (c.l1Look front k).map fun x => BitVec.ofNat 64 (leNat ((x.bytes.drop (l1Off p)).take n))

/-- The front sectors of a core's L1 whose loads now read the sector of a place, from whichever side they were filled
(07 R224; 08 R247, R260). -/
def State.frontsAt (s : State) (c : Core) (p : Place) : List (Nat × Nat) :=
  (c.l1.filterMap fun x => x.2.front).filter fun f => match s.check f.1 0 false (32 * f.2) with
    | .ok q _ _ => l1Copy q == l1Copy p
    | _ => false

/-- An applied store changes the copies of the issuing core: the one of its place, and those that serve its bytes for
fronts (08 R247). -/
def Core.l1Poke (c : Core) (fronts : List (Nat × Nat)) (p : Place) (bs : List Byte) : Core :=
  match l1Copy p with
  | none => c
  | some k =>
    { c with l1 := kmap (fun j (x : L1Sec) =>
        if j == k || x.front.any fun f => fronts.contains f then
          { x with bytes := x.bytes.take (l1Off p) ++ bs ++ x.bytes.drop (l1Off p + bs.length) } else x) c.l1 }

/-- The copy of a place is dropped (08 R248). -/
def Core.l1Drop (c : Core) (p : Place) : Core :=
  match l1Copy p with
  | none => c
  | some k => { c with l1 := kdel c.l1 k }

/-- Lines of 128 bytes of an L1 of 128 KiB (01 R16). -/
def l1Lines : Nat := 1024

/-- The lines that an L1 holds, by number, in ascending order. -/
def linesOf : KV L1Sec → List Nat
  | [] => []
  | x :: r => match linesOf r with
    | l :: q => if x.1 / 4 == l then l :: q else x.1 / 4 :: l :: q
    | [] => [x.1 / 4]

/-- Room for a sector's line: when the L1 is full, the line that the choice names is dropped (01 R16; 08 R248). -/
def Core.l1Room (c : Core) (k choice : Nat) : Core :=
  let ls := linesOf c.l1
  if ls.contains (k / 4) || ls.length < l1Lines then c
  else
    let v := ls.getD (choice % l1Lines) 0
    { c with l1 := kfilter (fun j _ => j / 4 != v) c.l1 }

/-- Fill of a sector: its 32 bytes, and the front address through which it is filled. -/
def Core.l1Fill (c : Core) (p : Place) (bytes : List Byte) (front : Option (Nat × Nat)) (choice : Nat) : Core :=
  match l1Key p with
  | none => c
  | some k =>
    let c := c.l1Room k choice
    let l1 := if front.isSome then kfilter (fun _ x => x.front != front) c.l1 else c.l1
    { c with l1 := kset l1 k { bytes := bytes, kind := l1KindOf p, marked := false, front := front } }

/-- Whether a core may keep what an answer to operation k brought for a place: no later answer has come for the sector
since k was issued (08 R250). -/
def Core.fresh (c : Core) (p : Place) (k : Nat) : Bool :=
  match l1Copy p with
  | none => false
  | some x => decide (kgetD c.got x 0 ≤ k)

/-- An answer has come for the sector of a place; now is the number of the next operation. -/
def Core.touch (c : Core) (p : Place) (now : Nat) : Core :=
  match l1Copy p with
  | none => c
  | some x => { c with got := kset c.got x now }

/-- Whether an acquire of a scope drops a sector (07 Table 7-4; 08 R249): the choice decides for a marked one below
system scope. -/
def l1Drops (scope choice : Nat) (x : L1Sec) : Bool :=
  match scope with
  | 5 => true
  | 4 => x.kind == .loc || x.kind == .peer || x.kind == .host || (x.marked && choice % 2 == 1)
  | 3 => x.kind == .loc || (x.marked && choice % 2 == 1)
  | _ => false

/-- The drop instant of an acquire point (08 R249): group scope of a paired group acts as device scope (07 R205). -/
def State.acquire (s : State) (core scope : Nat) (pair : Bool) : State :=
  let sc := if pair && scope == 1 then 3 else scope
  if sc < 3 then s
  else s.modCore core fun c => { c with l1 := kfilter (fun _ x => !l1Drops sc s.choice x) c.l1, epoch := c.epoch + 1 }

/-! ### Counters (03 R70) -/

/-- Key of the counter of a page of a context. -/
def countKey (ctx va : Nat) (big : Bool) : Nat := (ctx * 2 + big.toNat) * 2 ^ 48 + va / pageBytes big

/-- Adds a saturating count. -/
def satAdd (top x : Nat) : Nat := if x < top then x + 1 else top

/-! ### Demand records (03 R76) -/

/-- Source fields of a record: mending core, GRID, CORE, SRC, PART. -/
structure Src where
  mend : Nat
  grid : Nat
  core : Nat
  src  : Nat
  part : Nat
  deriving DecidableEq, Repr

/-- Source of a request of an issuer; a copy engine's requests for a warp name the engine (03 R76). The manual places
neither the copy engines nor the scheduler, the prefetch engine, the landing port and the host port on a die for R75: the
model takes die e / 32 for engine e and die 0 for the others, with CORE 0xFF and SRC 0 for the prefetch engine (log 80). -/
def State.srcOf (s : State) (who : Who) (ctx : Nat) (engine : Option Nat) : Src :=
  let part := match s.ctxInfo ctx with
    | some c => c.part
    | none => 0
  match who, engine with
  | .queue q, _ => { mend := 0, grid := 0xFFFFFFFF, core := 0xFF, src := q, part := part }
  | _, some e => { mend := e / 32 % 4, grid := ctxGrid ctx, core := 0xFF, src := e, part := part }
  | .warp wk, none =>
    { mend := coreDie (wkCore wk), grid := ctxGrid ctx, core := wkCore wk, src := wkSlot wk * 16 + wkPos wk, part := part }
  | .mend m, none => { mend := m, grid := ctxGrid ctx, core := 0xFF, src := 0, part := part }
  | _, none => { mend := 0, grid := ctxGrid ctx, core := 0xFF, src := 0, part := part }

/-- The 256 bits of a record (03 Table 3-8). -/
def demandBits (x : Src) (w : Wish) (tag : Nat) : Nat :=
  packFields [(tag, 16), (0, 48), (w.va, 64), (0, 5), (w.reason, 4), (w.kind, 4), (x.part, 3), (x.src, 8), (x.core, 8),
    (x.grid, 32)]

/-- The unanswered event that a request joins: same context, page and reason (03 R77 step 2). -/
def Mend.joins (m : Mend) (ctx : Nat) (w : Wish) : Option Nat :=
  (m.dem.find? fun e => e.2.ctx == ctx && e.2.page == w.va / 2 ^ 16 && e.2.reason == w.reason).map (·.1)

/-- A record is posted in the entry the model chooses, the lowest free one. -/
def Mend.post (m : Mend) (ctx : Nat) (x : Src) (w : Wish) (tag : Nat) : Mend :=
  { m with dem := kset m.dem tag { ctx := ctx, page := w.va / 2 ^ 16, reason := w.reason, kind := w.kind, va := w.va, ret := false, seq := m.dseq },
           dseq := m.dseq + 1,
           sram := mwrite m.sram (32 * tag) (leBytes 32 (demandBits x w tag)) }

/-- The unanswered event of any mending core that a request joins. -/
def State.joined (s : State) (ctx : Nat) (w : Wish) : Option Nat :=
  s.mends.findSome? fun m => (m.2.joins ctx w).map fun t => m.1 * 1024 + t

/-- Posts or joins an event: its tag, core × 1,024 + entry, or none when the queue is full (03 R77 step 2). -/
def State.postDemand (s : State) (ctx : Nat) (x : Src) (w : Wish) : State × Option Nat :=
  match s.joined ctx w with
  | some t => (s, some t)
  | none =>
    match kget s.mends x.mend with
    | none => (s, none)
    | some m =>
      match lowestFree (m.dem.map (·.1)) Config.demandEntries with
      | none => (s, none)
      | some t => (s.setMend x.mend (m.post ctx x w t), some (x.mend * 1024 + t))

/-- A record that holds no request is posted, or waits for an entry (03 R71, R77 step 2). -/
def State.postNote (s : State) (ctx : Nat) (x : Src) (w : Wish) : State :=
  match s.postDemand ctx x w with
  | (s, some _) => s
  | (s, none) =>
    let n : Note := { mend := x.mend, ctx := ctx, grid := x.grid, core := x.core, src := x.src, part := x.part, wish := w }
    { s with mem := { s.mem with notes := s.mem.notes ++ [n] } }

/-- Records that wait are posted, in order, as far as entries are free. -/
def State.postNotes (s : State) : State :=
  s.mem.notes.foldl (fun s n => s.postNote n.ctx { mend := n.mend, grid := n.grid, core := n.core, src := n.src, part := n.part } n.wish)
    { s with mem := { s.mem with notes := [] } }

/-- Posts a list of wishes: the state, the tags, and the wishes that found no entry. -/
def State.postAll (s : State) (ctx : Nat) (x : Src) : List Wish → State × List Nat × List Wish
  | [] => (s, [], [])
  | w :: r =>
    let (s1, t) := s.postDemand ctx x w
    let (s2, ts, ws) := s1.postAll ctx x r
    match t with
    | some k => (s2, if ts.contains k then ts else k :: ts, ws)
    | none => (s2, ts, w :: ws)

/-! ### Counting requests (03 R70, R71, R83, R84) -/

/-- Sectors of a page of local physical memory. -/
def pageSectors (a : Nat) : List Nat := (List.range 16).map fun i => a / 65536 * 16 + i

/-- The counter of a page counts one request (03 R70): its values before and after. -/
def State.bump (s : State) (ctx va : Nat) (big : Bool) : State × Nat × Nat :=
  let old := sget 0 s.mem.counts (countKey ctx va big)
  let n := satAdd 0xFFFF old
  ({ s with mem := { s.mem with counts := sset 0 s.mem.counts (countKey ctx va big) n } }, old, n)

end Sys2Proof.Machine
end

