-- ==== Sys2Proof/Machine/Access.lean ====
section
/-! DEFINITION. Requests in flight (07 R191, R192; 08 R246 to R251): elements served at local homes, requests sent to
peers (11 R331 to R335) and to the host (11 R325 to R327), pool fills (11 R339), failures (15 R378, R386). -/

namespace Sys2Proof.Machine

open Host

/-! ### Bytes of places -/

/-- Addresses of the n bytes of an element within its place's space, after the swizzle of R88. -/
def placeAddrs (p : Place) (n : Nat) : List Nat :=
  (List.range n).map fun i =>
    match p with
    | .loc a _ => a + i
    | .carve a => a + i
    | .peer _ a _ _ => a + i
    | .host a _ => a + i
    | .scr _ a z => swzByte z (a + i)
    | .seam _ _ a z => a / 2 ^ 20 * 2 ^ 20 + swzByte z (a % 2 ^ 20 + i)
    | .sram _ a => a + i

/-- A byte of a local place. -/
def State.byteAt (s : State) (p : Place) (a : Nat) : Byte :=
  match p with
  | .loc _ _ => s.mem.byte a
  | .carve _ => mget s.mem.carve a
  | .scr gk _ _ => match kget s.groups gk with
    | some g => mget g.scr a
    | none => 0
  | .sram m _ => match kget s.mends m with
    | some c => mget c.sram a
    | none => 0
  | _ => 0

/-- Whether an address lies in the record of an open lining, whose stores are ignored (07 R222). -/
def State.inLining (s : State) (carve : Bool) (a : Nat) : Bool :=
  s.grids.any fun g => g.2.linings.any fun l => l.2.carve == carve && decide (l.2.home ≤ a) && decide (a < l.2.home + 64)

/-- What a byte of a mending core's private SRAM holds once the core has stored b there: the fields of the device's records are
read-only, but for VALID and ACK of a memory-fault entry (00 R6; 03 Table 3-8; 15 Table 15-2; 16 Table 16-1). -/
def sramByte (a : Nat) (old b : Byte) : Byte :=
  if a < 0x8000 || (0x9000 ≤ a && a < 0x9040) then old
  else if 0xA000 ≤ a && a < 0xC000 then (if a % 32 == 31 then (old &&& 0x3F) ||| (b &&& 0xC0) else old)
  else b

/-- A byte stored at a local place. -/
def State.pokeAt (s : State) (p : Place) (a : Nat) (b : Byte) : State :=
  match p with
  | .loc _ _ => if s.inLining false a then s else { s with mem := s.mem.poke a [b] }
  | .carve _ => if s.inLining true a then s else { s with mem := { s.mem with carve := mset s.mem.carve a b } }
  | .scr gk _ _ => s.modGroup gk fun g => { g with scr := mset g.scr a b }
  | .sram m _ => s.modMend m fun c => { c with sram := mset c.sram a (sramByte a (mget c.sram a) b) }
  | _ => s

/-- The n bytes of a local place, as a number. -/
def State.placeRd (s : State) (p : Place) (n : Nat) : Nat := leNat ((placeAddrs p n).map fun a => s.byteAt p a)

/-- n bytes stored at a local place. -/
def State.placeWr (s : State) (p : Place) (n x : Nat) : State :=
  ((placeAddrs p n).zip (leBytes n x)).foldl (fun s e => s.pokeAt p e.1 e.2) s

/-! ### Atomic results (07 Table 7-3) -/

/-- The new value of an atomic of n bytes: function code, type code, old value, data, swap. -/
def atomNew (fn ty old data swap : Nat) : Nat :=
  let b := 8 * esize ty
  let o := old % 2 ^ b
  let d := data % 2 ^ b
  if fn == 6 then d
  else if fn == 7 then (if o == d then swap % 2 ^ b else o)
  else if 8 ≤ ty then fatom fn ty o d
  else
    let sg := tySigned ty
    match fn with
    | 0 => (o + d) % 2 ^ b
    | 1 => wrapInt b (min (ival sg b o) (ival sg b d))
    | 2 => wrapInt b (max (ival sg b o) (ival sg b d))
    | _ => logInt (fn - 3) b o d

/-! ### Order among the accesses of one issuer (07 R192; 08 Table 8-2) -/

/-- Scratchpad and seam-window places, and private SRAM: accesses to them take effect in program order (07 R192, R194). -/
def Place.scratch : Place → Bool
  | .scr _ _ _ => true
  | .seam _ _ _ _ => true
  | .sram _ _ => true
  | _ => false

/-- Whether an element is in scratchpad, a seam window or a private SRAM. -/
def Elem.isScr (e : Elem) : Bool := match e.place with
  | some p => p.scratch
  | none => false

/-- Two byte ranges that share a byte. -/
def meets (a n b m : Nat) : Bool := decide (a < b + m) && decide (b < a + n)

/-- Whether two elements share a byte at one home. -/
def Place.meets (p : Place) (n : Nat) (q : Place) (m : Nat) : Bool :=
  match p, q with
  | .loc a _, .loc b _ => Sys2Proof.Machine.meets a n b m
  | .carve a, .carve b => Sys2Proof.Machine.meets a n b m
  | .peer i a c _, .peer j b d _ => decide (i = j) && c == d && Sys2Proof.Machine.meets a n b m
  | .host a _, .host b _ => Sys2Proof.Machine.meets a n b m
  | _, _ => false

/-- The member whose scratchpad a place is in: a local group, or a peer's member of a seam. -/
def Place.member : Place → Option (Nat × Nat × Nat)
  | .scr gk _ _ => some (gk, 0, 0)
  | .seam n id a _ => some (n, id, a / 2 ^ 20 + 1)
  | _ => none

/-- Whether program order holds between two scratchpad elements: at one member, or in one private SRAM (07 R192, R194,
R199; 08 Table 8-2). -/
def Place.inOrder (p q : Place) : Bool :=
  match p, q with
  | .sram i _, .sram j _ => i == j
  | _, _ => p.member == q.member && p.member.isSome

/-- Whether an earlier element holds a later one of the same issuer: they share a byte, by one address or by two that
lead to one home, or the earlier one is held on an event for the later one's page (07 R192; 03 R77 step 3). -/
def State.holds (s : State) (e l : Elem) : Bool :=
  match e.place, l.place with
  | some p, some q =>
    if p.scratch || q.scratch then p.inOrder q
    else meets e.va e.n l.va l.n || (s.homePlace p).meets e.n (s.homePlace q) l.n
  | some p, none => !p.scratch && meets e.va e.n l.va l.n
  | none, some q => !q.scratch && (meets e.va e.n l.va l.n || e.va / 2 ^ 16 == l.va / 2 ^ 16)
  | none, none => meets e.va e.n l.va l.n || e.va / 2 ^ 16 == l.va / 2 ^ 16

/-- Whether an operation stores: ST, SST, STS, or a TST (09 R277). -/
def Op.isStore (o : Op) : Bool := match o.kind with
  | .acc .store => true
  | .acc (.tile true _) => true
  | _ => false

/-- Elements of class 4 accesses. -/
def Op.isAcc (o : Op) : Bool := match o.kind with
  | .acc _ => true
  | .async .. => false

/-- Whether an access takes part in the order of its issuer's accesses: a prefetch, a fetch of code and the prefetch
engine's requests do not (07 R207; 03 R84). -/
def Op.ordered (o : Op) : Bool := match o.kind with
  | .acc .pref => false
  | .acc (.fetch _) => false
  | .acc (.foldPages _ _) => false
  | .acc (.foldStep _) => false
  | .acc (.walkRd _) => false
  | .acc _ => true
  | .async .. => false

/-- Whether an earlier write of the same requester into the same landing window is not applied (03 R93). -/
def State.landHeld (s : State) (k : Nat) : Bool :=
  match s.land.wrs.find? fun x => x.op == k with
  | none => false
  | some w => s.land.wrs.any fun x => decide (x.op < k) && x.req == w.req && x.win == w.win && khas s.ops x.op

/-- Whether an earlier operation of the issuer holds an element. -/
def State.blocked (s : State) (k : Nat) (who : Who) (e : Elem) : Bool :=
  (match who with
   | .landing _ => s.landHeld k
   | _ => false) || ((match kget s.ops k with
   | some o => o.ordered
   | none => true) && s.ops.any fun o => decide (o.1 < k) && o.2.who == who && o.2.ordered && o.2.elems.any fun x => !x.done && s.holds x e)

/-! ### Pool requests (11 R339; 16 R404) -/

/-- The core clock's count of a die, as its mending core counts it (16 R404; 17 R422; log 99). -/
def State.dieCycles (s : State) (die : Nat) : Nat := match kget s.mends die with
  | some m => m.cycles
  | none => 0

/-- Whether a pool port is in service: trained, with its IDE stream established (11 R345). -/
def MemSys.portUp (m : MemSys) (i : Nat) : Bool := match kget m.pports i with
  | some x => x.up
  | none => false

/-- The in-service port at or after p, cyclically (16 R404). -/
def MemSys.portFrom (m : MemSys) (p : Nat) : Option Nat := ((List.range 8).map fun i => (p + i) % 8).find? m.portUp

/-- Port of a local physical address, or the next one in service (11 R339; 16 R404). -/
def State.poolPort (s : State) (a : Nat) : Option Nat := s.mem.portFrom (bitsOf a 30 3 ^^^ bitsOf a 16 3)

/-- A pool request leaves on its port, as transfers of 64 bytes: a sector's fill is 64 reads, its write-back 64 writes of its
encrypted bytes (11 R339, R346). -/
def State.poolEmit (s : State) (id : Nat) (r : PoolReq) : State :=
  match r.work with
  | .fill _ => (List.range 64).foldl (fun s i => s.emit (.poolRead id r.port (r.addr + 64 * i))) s
  | .wb _ bs =>
    let bs := Config.sm4xts r.key (sectorTweak r.addr) bs
    (List.range 64).foldl (fun s i => s.emit (.poolWrite id r.port (r.addr + 64 * i) ((bs.drop (64 * i)).take 64))) s
  | .publish _ _ => s.emit (.poolPublish id r.port r.addr)

/-- A pool request at its transmission (16 R404). -/
def State.stamped (s : State) (r : PoolReq) : PoolReq := { r with since := s.dieCycles (r.port / 2) }

/-- A new pool request; with no port in service none is sent. -/
def State.poolSend (s : State) (a : Nat) (w : PoolWork) : State :=
  match s.poolPort a with
  | none => s
  | some p =>
    let id := s.opNo
    let r := s.stamped { port := p, addr := s.mem.poolAddr a, work := w, tries := 0, key := s.keyAt a }
    (({ s with mem := { s.mem with preqs := kset s.mem.preqs id r } }).poolEmit id r).bumpOp

/-- Whether a write-back of a sector is outstanding. -/
def State.backing (s : State) (k : Nat) : Bool := s.mem.preqs.any fun e => match e.2.work with
  | .wb j _ => j == k
  | _ => false

/-- A dirty sector is sent to the pool, unless a write-back of it is outstanding, it is lost or its lease has ended; it stays
dirty until that completes (16 R400, R406, R408). -/
def State.sendBack (s : State) (k : Nat) : State :=
  let x := s.mem.sec k
  if x.valid && x.dirty && !x.lost && !s.backing k && (s.mem.leaseAt (k * 4096)).live then s.poolSend (k * 4096) (.wb k (mread s.mem.bytes (k * 4096) 4096)) else s

/-- A write-back of these bytes has completed: the sector is clean when it holds them still (16 R406). -/
def MemSys.backed (m : MemSys) (k : Nat) (bs : List Byte) : MemSys :=
  let x := m.sec k
  if x.valid && !x.lost then { m with secs := kset m.secs k { x with dirty := x.dirty && mread m.bytes (k * 4096) 4096 != bs } } else m

/-! ### Frames and their replacement (03 R72; 16 R406) -/

/-- Whether a frame is pinned: frames of the reserve lease are, the ones that the manual names (03 R72; log 26). -/
def MemSys.pinned (m : MemSys) (f : Nat) : Bool := (m.leaseAt (f * 65536)).reserve

/-- The frames in use, by number, ascending: of sectors that are held, and of fills that are out. -/
def MemSys.inUse (m : MemSys) : KV Unit :=
  let fs := m.secs.foldr (fun e (l : KV Unit) => match l with
    | (f, u) :: r => if e.1 / 16 == f then (f, u) :: r else (e.1 / 16, ()) :: (f, u) :: r
    | [] => [(e.1 / 16, ())]) []
  m.preqs.foldl (fun l e => match e.2.work with
    | .fill k => kset l (k / 16) ()
    | _ => l) fs

/-- The frames that count in a partition's share: those of its extents that are not pinned. -/
def MemSys.framesOf (m : MemSys) (part : Nat) : List Nat :=
  (m.inUse.map (·.1)).filter fun f => (m.leaseAt (f * 65536)).part == part && !m.pinned f

/-- HBM stacks that are out of service: by fuse, or fenced (16 R411, R413). -/
def Mgmt.stacksOff (m : Mgmt) : BitVec 16 := m.fuseStacks ||| m.fencedStacks

/-- Whether a stack is in service. -/
def Mgmt.stackOn (m : Mgmt) (k : Nat) : Bool := !m.stacksOff.getLsbD k

/-- The stacks in service. -/
def Mgmt.stacks (m : Mgmt) : List Nat := (List.range 16).filter m.stackOn

/-- Frames of 64 KiB that n GiB of page cache hold. -/
def gibFrames (n : Nat) : Nat := n * 16384

/-- GiB of the share that a partition's HBMSHARE names with n stacks in service (16 R413). -/
def State.shareGib (s : State) (part : Nat) : Nat := (s.part part).hbm.toNat * s.mgmt.stacks.length / 16

/-- Frames of the page cache: 96 GiB a stack in service (01 R16; 16 R413). -/
def State.cacheFrames (s : State) : Nat := gibFrames (96 * s.mgmt.stacks.length)

/-- Frames of a partition's share: floor(HBMSHARE × n ÷ 16) GiB with n stacks in service. A partition with a HBMSHARE of 0
has no share of its own, and its fills use what no share names (11 Table 11-12; 16 R413; log 102). -/
def State.shareOf (s : State) (part : Nat) : Nat :=
  if (s.part part).hbm == 0 then s.cacheFrames - gibFrames ((List.range 8).foldl (fun n p => n + s.shareGib p) 0)
  else gibFrames (s.shareGib part)

/-- The stack that holds a frame: the one it was moved to, else the device's placement (log 34). -/
def MemSys.stackOf (m : MemSys) (f : Nat) : Nat := ((kget m.frames f).bind (·.stack)).getD (Config.frameStack f).toNat

/-- Whether a stack takes frames: it is in service, and no fence of it is in progress (16 R413). -/
def Mgmt.takesFrames (m : Mgmt) (k : Nat) : Bool := m.stackOn k && m.fenceBusy != some k

/-- Whether a stack holds its 96 GiB of frames (01 R16). -/
def MemSys.stackFull (m : MemSys) (k : Nat) : Bool := decide (gibFrames 96 ≤ (m.inUse.filter fun f => m.stackOf f.1 == k).length)

/-- The stack that a frame goes to when its own cannot take it: the lowest with room (16 R413; log 34). -/
def Mgmt.otherStack (g : Mgmt) (m : MemSys) : Nat :=
  let on := (List.range 16).filter g.takesFrames
  ((on.find? fun k => !m.stackFull k).getD (on.headD 0))

/-- A frame that comes into use is allocated on a stack that takes frames. While every stack does and none can be full, it
is on its own. -/
def State.allocFrame (s : State) (f : Nat) : State :=
  if khas s.mem.inUse f || (s.mgmt.stacks.length == 16 && s.mgmt.fenceBusy.isNone && s.mem.inUse.length < gibFrames 96) then s
  else
    let c := (Config.frameStack f).toNat
    let x : Option Nat := if s.mgmt.takesFrames c && !s.mem.stackFull c then none else some (s.mgmt.otherStack s.mem)
    { s with mem := { s.mem with frames := kset s.mem.frames f { evict := false, stack := x } } }

/-- Whether a frame can be reused at once: its sectors are in the pool, none is lost (16 R406). -/
def State.frameClean (s : State) (f : Nat) : Bool :=
  (pageSectors (f * 65536)).all fun k => !(s.mem.sec k).dirty && !(s.mem.sec k).lost && !s.backing k

/-- Lines of a frame that the host holds: its sectors stay valid until the lines are back (08 R257). -/
def MemSys.frameLines (m : MemSys) (f : Nat) : List Nat := m.hostLines.filter fun x => x / 2 / 512 == f

/-- The host is asked for the lines of a frame. -/
def State.recallFrame (s : State) (f : Nat) : State :=
  (s.mem.frameLines f).foldl (fun s x =>
    if x % 2 == 1 then s
    else { s with mem := { s.mem with hostLines := (x + 1) :: dropNat s.mem.hostLines x } }.emit (.hostRecall (x / 2))) s

/-- Whether a frame can be evicted now, or once its dirty sectors are in the pool: none of them is lost, and its lease or its
outstanding write-backs allow it (16 R400, R406). -/
def State.canEvict (s : State) (f : Nat) : Bool := s.frameClean f || (s.mem.leaseAt (f * 65536)).live

/-- The frame to evict among some: one that a fold released comes first, else the choice names it (03 R72, R84). -/
def State.victim (s : State) (fs : List Nat) : Option Nat :=
  let marked := fun (f : Nat) => match kget s.mem.frames f with
    | some x => x.evict
    | none => false
  let go := fun (l : List Nat) => if l.isEmpty then none else some (l.getD (s.choice % l.length) 0)
  match fs.find? fun f => marked f && s.canEvict f with
  | some f => some f
  | none => go (fs.filter s.canEvict)

/-- A frame leaves the page cache. -/
def MemSys.dropFrame (m : MemSys) (f : Nat) : MemSys :=
  let m := (pageSectors (f * 65536)).foldl (fun (m : MemSys) k => m.dropSector k) m
  { m with frames := kdel m.frames f }

/-- Room for a sector that is to be filled, within its partition's share and the capacity of the page cache: an unpinned frame
of the partition is evicted once its dirty sectors are in the pool; a fill that finds none waits (01 R16; 03 R72; 16 R406).
Frames in use are no more than sectors and requests, which spares their count while there are few. -/
def State.makeRoom (s : State) (k : Nat) : State × Bool :=
  let l := s.mem.leaseAt (k * 4096)
  let share := if s.mem.pinned (k / 16) then s.cacheFrames else min (s.shareOf l.part) s.cacheFrames
  if s.mem.secs.length + s.mem.preqs.length < share || khas s.mem.inUse (k / 16) then (s, true)
  else
    let fs := s.mem.framesOf l.part
    if s.mem.inUse.length < s.cacheFrames && (s.mem.pinned (k / 16) || decide (fs.length < share)) then (s, true)
    else match s.victim fs with
      | none => (s, false)
      | some f =>
        if !(s.mem.frameLines f).isEmpty then (s.recallFrame f, false)
        else if s.frameClean f then ({ s with mem := s.mem.dropFrame f }, true)
        else ((pageSectors (f * 65536)).foldl (fun s j => s.sendBack j) s, false)

/-- Whether the fill of a sector is out. -/
def MemSys.filling (m : MemSys) (k : Nat) : Bool := m.preqs.any fun e => e.2.work == .fill k

/-- The fill of one sector is asked for once, after a write-back of it, when there is room for it (03 R72). -/
def State.fillOne (s : State) (k : Nat) : State :=
  if s.mem.filling k || s.backing k || (s.poolPort (k * 4096)).isNone then s
  else match s.makeRoom k with
    | (t, true) => (t.allocFrame (k / 16)).poolSend (k * 4096) (.fill k)
    | (t, false) => t

/-- The fill of a sector is asked for; with a sector of a pinned frame the others of the frame that are not valid, since a
pinned frame's sectors are kept valid (03 R72). -/
def State.askFill (s : State) (k : Nat) : State :=
  let s := s.fillOne k
  if s.mem.pinned (k / 16) then
    (pageSectors (k * 4096)).foldl (fun s j => if (s.mem.sec j).valid || (s.mem.sec j).lost then s else s.fillOne j) s
  else s

/-! ### The gate of a home slice -/

/-- Whether the issuer of an operation is a mending core, whose accesses no migration hold stops (07 R194). -/
def State.byMend (s : State) (k : Nat) : Bool :=
  match kget s.ops k with
  | some o => match o.who with
    | .mend _ => true
    | _ => false
  | none => false

/-- Whether the migration hold of a page holds an operation (11 R338). -/
def State.migHeld (s : State) (k a : Nat) : Bool := s.mends.any fun m => match m.2.mig with
    | some h => h.page == a / 65536 && !h.early.contains k
    | none => false

/-- The state of a home for one access: ready, or what the access waits for has been asked for; free is set for a mending
core, which no migration hold stops. -/
def State.gateFor (s : State) (free : Bool) (k : Nat) (p : Place) : State × Bool :=
  match p with
  | .loc a _ =>
    if !free && s.migHeld k a then (s, false)
    else if (s.mem.sec (a / 4096)).lost then
      (if s.mem.heldAt.contains (k, a / 4096) then s
       else { s with mem := { s.mem with heldAt := s.mem.heldAt ++ [(k, a / 4096)] } }, false)
    else if s.mem.hostLines.contains (a / 128 * 2 + 1) then (s, false)
    else if s.mem.hostLines.contains (a / 128 * 2) then
      ({ s with mem := { s.mem with hostLines := (a / 128 * 2 + 1) :: dropNat s.mem.hostLines (a / 128 * 2) } }.emit
        (.hostRecall (a / 128)), false)
    else if s.mem.valid a then (s, true)
    else (s.askFill (a / 4096), false)
  | .carve a =>
    if s.mem.lostCarve.contains (a / 4096) then
      (if s.mem.heldAt.contains (k, 2 ^ 40 + a / 4096) then s
       else { s with mem := { s.mem with heldAt := s.mem.heldAt ++ [(k, 2 ^ 40 + a / 4096)] } }, false)
    else (s, true)
  | .scr _ _ _ => (s, true)
  | .sram _ _ => (s, true)
  | _ => (s, false)

/-- The same for an operation. -/
def State.gate (s : State) (k : Nat) (p : Place) : State × Bool := s.gateFor (s.byMend k) k p

/-- Whether the homes of several places are ready; what they wait for has been asked for. -/
def State.gateAll (s : State) (k : Nat) (ps : List Place) : State × Bool :=
  ps.foldl (fun (r : State × Bool) p => let (t, ok) := r.1.gate k p; (t, ok && r.2)) (s, true)

/-! ### Elements at a local home -/

/-- Sets an element of an operation. -/
def State.setElem (s : State) (k i : Nat) (e : Elem) : State :=
  { s with ops := kmod s.ops k fun o => { o with elems := setAt o.elems i e } }

/-- The core whose L1 an issuer uses. -/
def whoCore : Who → Option Nat
  | .warp wk => some (wkCore wk)
  | _ => none

/-- The core whose L1 an operation's stores keep (08 R247): its warp's, also once the warp is gone. The writes of an
asynchronous engine change no copy (08 R248). -/
def Op.l1Core (o : Op) : Option Nat := match o.kind with
  | .async .. => none
  | .acc _ => match whoCore o.who with
    | some c => some c
    | none => o.core

/-- The L1 of the issuing core takes an applied store (08 R247). -/
def State.pokeL1 (s : State) (core : Option Nat) (p : Place) (n x : Nat) : State :=
  match core with
  | none => s
  | some c => s.modCore c fun k => k.l1Poke (s.frontsAt k p) p (leBytes n x)

/-- The L1 of the issuing core drops its copy of a place. -/
def State.dropL1 (s : State) (core : Option Nat) (p : Place) : State :=
  match core with
  | none => s
  | some c => s.modCore c fun k => k.l1Drop p

/-- The first address of the sector of a place. -/
def Place.sector : Place → Place
  | .loc a k => .loc (a / 32 * 32) k
  | .carve a => .carve (a / 32 * 32)
  | p => p

/-- A miss fills its sector from the home (08 R248); a load that was issued before an acquire point fills nothing, and
leaves no older copy (08 R249, R250). -/
def State.fillL1 (s : State) (o : Op) (e : Elem) (p : Place) : State :=
  match whoCore o.who, l1Key p with
  | some c, some _ =>
    if (s.core c).epoch != o.epoch then s.dropL1 (some c) p
    else
      let b := p.sector
      s.modCore c fun k => k.l1Fill p ((placeAddrs b 32).map fun a => s.byteAt b a) (s.frontOf o.ctx e.va) s.choice
  | _, _ => s

/-- Whether a place is in the record of an open lining, where stores are ignored (07 R222). -/
def State.inRecord (s : State) (p : Place) : Bool := match p with
  | .loc a _ => s.inLining false a
  | .carve a => s.inLining true a
  | _ => false

/-- A store of n bytes at a local home. -/
def State.storeAt (s : State) (core : Option Nat) (p : Place) (n x : Nat) : State :=
  if s.inRecord p then s else (s.placeWr p n x).pokeL1 core p n x

/-- One element is read, written or stepped at its local home p at one instant (08 R246); its place says what the L1 may
hold of it. -/
def State.applyElem (s : State) (k i : Nat) (o : Op) (e : Elem) (p : Place) : State :=
  match o.kind with
  | .acc (.tile true _) => (s.storeAt o.l1Core p e.n e.data.toNat).setElem k i { e with done := true }
  | .acc .store => (s.storeAt o.l1Core p e.n e.data.toNat).setElem k i { e with done := true }
  | .acc (.load l1 _ _) =>
    let x := s.placeRd p e.n
    let s := if l1 then s.fillL1 o e (e.place.getD p) else s
    s.setElem k i { e with got := some (BitVec.ofNat 64 x), done := true }
  | .acc (.atom fn ty ..) =>
    let old := s.placeRd p e.n
    let x := atomNew fn ty old e.data.toNat e.swap.toNat
    (s.storeAt o.l1Core p e.n x).setElem k i { e with got := some (BitVec.ofNat 64 old), done := true }
  | _ => s.setElem k i { e with got := some (BitVec.ofNat 64 (s.placeRd p e.n)), done := true }

/-- Lanes of one store or atomic that touch a common byte take effect in ascending lane id (07 R192, R203). -/
def State.lanesHold (s : State) (o : Op) (i : Nat) (e : Elem) : Bool :=
  (o.elems.take i).any fun x => !x.done && (meets x.va x.n e.va e.n || match x.place, e.place with
    | some p, some q => (s.homePlace p).meets x.n (s.homePlace q) e.n
    | _, _ => false)

/-- What names the target of a remote place: peer, carve, seam. -/
def Place.target : Place → Option (Nat × Bool × Option Nat)
  | .peer n _ c _ => some (n, c, none)
  | .seam n id _ _ => some (n, false, some id)
  | _ => none

/-- Whether a place is at another device. -/
def State.remote (s : State) (p : Place) : Bool := (s.homePlace p).target.isSome

/-- Whether an operation changes memory as an access: a store, a TST or an atomic. -/
def Op.changes (o : Op) : Bool := match o.kind with
  | .acc .store => true
  | .acc (.tile true _) => true
  | .acc (.atom ..) => true
  | _ => false

/-- The places at homes of this device of the elements that are not done. -/
def State.localPlaces (s : State) (o : Op) : List Place :=
  o.elems.filterMap fun e => if e.done then none else match e.place.map s.homePlace with
    | some (.loc a k) => some (.loc a k)
    | some (.carve a) => some (.carve a)
    | some (.scr g a z) => some (.scr g a z)
    | some (.sram m a) => some (.sram m a)
    | _ => none

/-- Whether an access of a warp or mending core that changes memory may begin to: every home of this device is ready with
its lease live, and other devices, which may still refuse it, have answered (07 R191; 15 R387). An access that has begun
goes on. -/
def State.mayApply (s : State) (k : Nat) (o : Op) : State × Bool :=
  if !o.changes || o.elems.any (·.done) then (s, true)
  else
    let ps := s.localPlaces o
    let ended := ps.any fun p => match p with
      | .loc a _ => (leaseReason (s.mem.leaseAt a)).isSome
      | _ => false
    let (t, ok) := s.gateAll k ps
    (t, ok && !ended)

def Op.isAtom (o : Op) : Bool := match o.kind with
  | .acc (.atom ..) => true
  | _ => false

/-- Whether an element's place is at the host. -/
def Elem.toHost (e : Elem) : Bool := match e.place with
  | some (.host _ _) => true
  | _ => false

/-- Whether a request of an access that changes memory is out at another device, which may refuse it, or at the host as an
AtomicOp, which may be lost with the link (07 R191). -/
def State.abroad (s : State) (o : Op) : Bool :=
  o.changes && o.elems.any fun e => !e.done && (match e.place with
    | some p => s.remote p || (o.isAtom && e.toHost)
    | none => true)

/-- One element is served when nothing holds it: no demand event, no earlier access of its issuer, its home ready. -/
def State.serveElem (s : State) (k i : Nat) : State :=
  match kget s.ops k with
  | none => s
  | some o =>
    match o.elems[i]? with
    | none => s
    | some e =>
      if e.done || !o.hold.isEmpty || !o.want.isEmpty || !o.fails.isEmpty || s.abroad o || s.blocked k o.who e || s.lanesHold o i e then s
      else match e.place.map s.homePlace with
        | none => s
        | some p =>
          let (s, begun) := s.mayApply k o
          if !begun then s
          else
            let (s, ok) := s.gate k p
            if ok then s.applyElem k i o e p else s

/-- Elements of one request to a pressed page that are not done: they are served at one instant, since the request returns
bytes of exactly one version (03 R85). -/
def Op.sameRequest (o : Op) (i : Nat) : List Nat :=
  match (o.elems[i]?).bind (·.place) with
  | some (.loc a .pressed) => (List.range o.elems.length).filter fun j => match o.elems[j]? with
    | some e => !e.done && (match e.place with
      | some (.loc b .pressed) => a / 128 == b / 128
      | _ => false)
    | none => false
  | _ => [i]

/-- The elements of one request are served, once nothing holds any of them. -/
def State.serveRequest (s : State) (k i : Nat) : State :=
  match kget s.ops k with
  | none => s
  | some o =>
    let js := o.sameRequest i
    if js.any fun j => match o.elems[j]? with
      | some e => s.blocked k o.who e || s.lanesHold o j e
      | none => false then s
    else js.foldl (fun s j => s.serveElem k j) s

/-! ### Requests to peers (11 R331 to R334) -/

/-- The slice of a request (11 R333). -/
def sliceOf (peer a : Nat) : Nat :=
  bitsOf a 7 4 ^^^ bitsOf a 11 4 ^^^ bitsOf a 15 4 ^^^ bitsOf a 19 4 ^^^ bitsOf peer 0 4 ^^^ bitsOf peer 4 4 ^^^
    bitsOf peer 8 4 ^^^ bitsOf peer 12 2

/-- Plane of a slice (11 Table 11-8). -/
def Fabric.planeOf (f : Fabric) (h : Nat) : Nat := bitsOf f.map.toNat (4 * h) 4

/-- Whether a plane's port is up. -/
def Fabric.planeUp (f : Fabric) (n : Nat) : Bool := match kget f.ports n with
  | some p => p.up
  | none => false

/-- Whether some port is up (17 R421). -/
def Fabric.anyUp (f : Fabric) : Bool := f.ports.any fun p => p.2.up

/-- Whether a tag is withheld (17 R422). -/
def State.tagBurnt (s : State) (k : Nat) : Bool := match kget s.fab.burnt k with
  | some (die, n) => decide (s.dieCycles die < n)
  | none => false

/-- The lowest tag of a plane that is neither outstanding nor withheld (11 Table 11-6; 17 R422). -/
def State.planeTag (s : State) (plane : Nat) : Option Nat :=
  (List.range Config.planeTags).find? fun t =>
    !(khas s.fab.reqs (plane * Config.planeTags + t)) && !s.tagBurnt (plane * Config.planeTags + t)

/-- A Kagon port. -/
def State.kport (s : State) (n : Nat) : KPort := kgetD s.fab.ports n KPort.reset
def State.modKport (s : State) (n : Nat) (f : KPort → KPort) : State :=
  { s with fab := { s.fab with ports := kset s.fab.ports n (f (s.kport n)) } }

/-- A flit leaves on a port under the port's next link sequence number (11 R330). -/
def State.emitFlit (s : State) (port : Nat) (f : Flit) : State :=
  (s.emit (.flit port { f with seq := (s.kport port).tx })).modKport port fun p => { p with tx := p.tx + 1 }

/-- How a flit that passes its CRC stands in its link's sequence (11 R330; log 93). -/
inductive LinkTurn where
  | next | ahead | repeated
  deriving DecidableEq, Repr

/-- Of the 2,048 numbers, those of the half that follows the next one to be passed on are ahead of it, and the others have been
passed on. -/
def KPort.turn (p : KPort) (seq : BitVec 11) : LinkTurn :=
  if seq == p.rx then .next else if (seq - p.rx).toNat < 1024 then .ahead else .repeated

/-- The flit that is next in its link's sequence is passed on; one that was received before it comes next (11 R330; 17 R416). -/
def State.linkIn (s : State) (l : Link) : State :=
  let n := (l.seq + 1).toNat
  let p := s.kport l.port
  let s := s.modKport l.port fun _ => { p with crc := kdel p.crc l.seq.toNat, rx := l.seq + 1, early := kdel p.early n }
  match kget p.early n with
  | some e => s.selfSend e
  | none => s

/-- A flit arrives as an event, at a port that is up: flits are passed on in sequence, once each; one that is ahead waits at its
port, and one that repeats is discarded (11 R330). What no flit brought arrives at once. -/
def onLink (e : Instr) (l : Option Link) (s : State) (k : State → Res) : Res :=
  match l with
  | none => k s
  | some l =>
    if !(s.kport l.port).up then .next s
    else match (s.kport l.port).turn l.seq with
      | .next => k (s.linkIn l)
      | .ahead => .next (s.modKport l.port fun p => { p with crc := kdel p.crc l.seq.toNat, early := kset p.early l.seq.toNat e })
      | .repeated => .next (s.modKport l.port fun p => { p with crc := kdel p.crc l.seq.toNat })

/-- Code and seam of a scheduler message (11 Table 11-10). -/
def msgCode (f : Flit) : Nat := leNat (f.data.take 4)
def msgSeam (f : Flit) : Nat := leNat ((f.data.drop 4).take 4)

/-- Whether a message of one code shows that an earlier one of the same seam to the same device has been acted on, or does
what is left of it (10 R305, R307; log 52). -/
def msgEnds (new old : Nat) : Bool :=
  if new == 13 || old == 13 then false
  else if new == 1 then old != 7
  else if new == 7 then old == 1 || old == 4 || old == 7
  else if new == 8 || new == 9 || new == 10 then old == new
  else true

/-- A scheduler message has left on a plane: it is kept for the loss of that plane (17 R420). -/
def Fabric.keepMsg (f : Fabric) (plane : Nat) (r : KReq) : Fabric :=
  let ends := fun (o : KReq) => o.flit.dest == r.flit.dest && msgSeam o.flit == msgSeam r.flit &&
    (o.flit.data == r.flit.data || msgEnds (msgCode r.flit) (msgCode o.flit))
  if r.flit.op == 0x20 then { f with msgs := (f.msgs.filter fun o => !ends o.2) ++ [(plane, r)] } else f

/-- A request leaves on its plane, or is held at the source in order (11 R334). Messages take no tag; one whose plane is down
waits for a plane. -/
def State.kSend (s : State) (r : KReq) : State :=
  let f := s.fab
  let hold : State := { s with fab := { f with held := f.held ++ [r] } }
  if (f.busy && f.slice.toNat == r.slice) || f.held.any (fun x => x.slice == r.slice) then hold
  else
    let plane := f.planeOf r.slice
    if 0x20 ≤ r.flit.op.toNat then
      if f.planeUp plane then { s with fab := f.keepMsg plane r }.emitFlit plane { r.flit with rv := f.rv.getLsbD r.slice } else hold
    else match s.planeTag plane with
    | none => hold
    | some t =>
      let fl := { r.flit with tag := BitVec.ofNat 12 t, rv := f.rv.getLsbD r.slice }
      let s := { s with fab := { f with reqs := kset f.reqs (plane * Config.planeTags + t) { r with flit := fl, since := s.dieCycles r.die } } }
      s.emitFlit plane fl

/-- A flit of this device. -/
def State.flitTo (s : State) (op dest addr : Nat) : Flit :=
  { op := BitVec.ofNat 8 op, dest := BitVec.ofNat 14 dest, source := s.mgmt.peernum, rv := false, carve := false,
    seam := false, size := 0, tag := 0, addr := BitVec.ofNat 45 addr, typ := 0, aop := 0, data := [], mask := 0,
    seamid := 0 }

/-- The smallest aligned region of 16 to 128 bytes with both offsets: its base and size code (03 R74). -/
def regionOf (lo hi : Nat) : Nat × Nat :=
  if lo / 16 == hi / 16 then (lo / 16 * 16, 0)
  else if lo / 32 == hi / 32 then (lo / 32 * 32, 1)
  else if lo / 64 == hi / 64 then (lo / 64 * 64, 2)
  else (lo / 128 * 128, 3)

/-- The data and byte enables of a write or reduction of elements, over the region at base (11 Table 11-7). -/
def flitPayload (f : Flit) (es : List Elem) (base : Nat) : Flit :=
  let cells := es.flatMap fun e => match e.place with
    | some p => (placeAddrs p e.n).zip (leBytes e.n e.data.toNat)
    | none => []
  let mem := cells.foldl (fun (m : Memory) c => mset m (c.1 - base) c.2) []
  { f with data := mread mem 0 128, mask := lanesMask (cells.map fun c => c.1 - base) }

/-- One request for a group of elements of one 128-byte block (03 R74; 11 Table 11-7). -/
def State.sendBlock (s : State) (k : Nat) (o : Op) (xs : List (Nat × Elem)) : State :=
  match xs with
  | [] => s
  | (_, e0) :: _ =>
    match e0.place with
    | none => s
    | some p0 =>
      match p0.target with
      | none => s
      | some (peer, carve, seam) =>
        let addrs := xs.flatMap fun x => match x.2.place with
          | some p => placeAddrs p x.2.n
          | none => []
        let blk := addrs.headD 0 / 128 * 128
        let offs := addrs.map (· - blk)
        let rg := regionOf (offs.foldl min 127) (offs.foldl max 0)
        let f0 := { s.flitTo 1 peer (blk + rg.1) with carve := carve, seam := seam.isSome, size := BitVec.ofNat 2 rg.2,
                                                      seamid := BitVec.ofNat 32 (seam.getD 0) }
        let fw := flitPayload f0 (xs.map (·.2)) (blk + rg.1)
        let fl : Flit := if o.isStore then { fw with op := 2 }
          else match o.kind with
          | .async (.cred _ _ _ ty fn _) _ _ _ _ _ => { fw with op := 5, typ := BitVec.ofNat 5 ty, aop := BitVec.ofNat 3 fn }
          | .acc (.atom fn ty noret _ _ _) =>
            let (a, z) := match p0 with
              | .seam _ _ a z => (a, z)
              | _ => (addrs.headD 0, 0)
            { f0 with op := if noret then 4 else 3, size := 0, addr := BitVec.ofNat 45 a, typ := BitVec.ofNat 5 ty,
                      aop := BitVec.ofNat 3 fn, data := leBytes 8 e0.data.toNat ++ leBytes 8 e0.swap.toNat, swz := BitVec.ofNat 2 z }
          | _ => f0
        let slice := match seam with
          | some id => id % 16 ^^^ blk / 2 ^ 20 % 16
          | none => sliceOf peer (addrs.headD 0)
        let s := xs.foldl (fun s x => s.setElem k x.1 { x.2 with sent := true }) s
        let engine := match o.kind with
          | .async _ _ _ _ en _ => some en
          | .acc _ => none
        s.kSend { slice := slice, flit := fl, op := some k, elems := xs.map (·.1), back := none, die := (s.srcOf o.who o.ctx engine).mend }

/-- The 128-byte block of an element: its target, and block at home. -/
def Elem.block (e : Elem) : Option (Nat × Bool × Option Nat) × Nat := match e.place with
  | some p => (p.target, (placeAddrs p 1).headD 0 / 128)
  | none => (none, 0)

/-- Adds an element to the request of its block, or as a request of its own after those of lower or equal addresses
(03 R74); an atomic goes alone. -/
def addBlock (alone : Bool) (x : Nat × Elem) : List (List (Nat × Elem)) → List (List (Nat × Elem))
  | [] => [[x]]
  | g :: gs =>
    if !alone && (g.head?.map fun y => y.2.block) == some x.2.block then (g ++ [x]) :: gs
    else if decide (x.2.va / 128 < ((g.head?.map fun y => y.2.va / 128).getD 0)) then [x] :: g :: gs
    else g :: addBlock alone x gs

/-- Groups numbered elements by target and 128-byte block, in ascending address order (03 R74). -/
def blocksOf (alone : Bool) (xs : List (Nat × Elem)) : List (List (Nat × Elem)) := xs.foldl (fun l x => addBlock alone x l) []

/-! ### Failures -/

/-- Lanes of elements. -/
def elemLanes (es : List Elem) : Lanes := lanesMask (es.map (·.lane))

/-- A WRITE, COUNT or COPY packet whose access fails keeps its cause for its record (15 R395). -/
def State.packetFault (s : State) (k cause : Nat) : State :=
  { s with sched := { s.sched with packets := s.sched.packets.map fun p =>
      if (p.op == some k) = true then { p with op := none, status := 0x400 + cause } else p } }

/-- RDIDX names the next packet; PAR inverts at the wrap (10 R291). -/
def Queue.skip (r : Queue) : Queue := { r with rdidx := r.rdidx + 1, par := if r.rdidx == 4095 then !r.par else r.par }

/-- A packet error (10 R299; 15 R394): STATE 3 with ERR, and RDIDX stays. A queue that was being disabled ends disabled, and
RDIDX names the packet after it (10 R290). -/
def Queue.stopAt (r : Queue) (err : Byte) : Queue :=
  if r.en then { r with state := 3, err := err } else { r.skip with state := 0, err := err }

/-- ERR of a queue whose descriptor or seam record cannot be read (15 Table 15-5). -/
def errRead : Byte := 8

/-- A landing window faults: its write is discarded; the notice names the lowest-numbered warp of a group of the context
on the lowest core that holds one (17 R426, R427; 15 R379). -/
def State.landFault (s : State) (k w cause detail va : Nat) : State :=
  let ctx := (s.win w).ctx
  let rest := s.land.wrs.filter fun x => x.op != k
  let s := { s with land := { s.land with wrs := rest, flt := s.land.flt ||| BitVec.ofNat 64 (2 ^ w) } }
  let s := s.modWin w fun x => { x with fault := true }
  match ctx with
  | none => s
  | some g =>
    let gks := s.groups.filter fun e => gkGrid e.1 == g && e.2.phase.resident
    match gks.flatMap fun e => e.2.cores.map fun c => (c, e.1) with
    | [] => s
    | c0 :: r =>
      let (c, gk) := r.foldl (fun a b => if b.1 < a.1 then b else a) c0
      let (ix, wk) := (s.lowWarp gk).getD (0, c * 128)
      s.postRecord (s.groupPart gk) c fun seq drops =>
        trapBits (TrapInfo.sched cause detail va) g (gkIx gk) ix (wkPos wk) (wkSlot wk) c seq 3 drops

/-- Bytes whose value the manual does not state (log 35). -/
def State.freeBytes (s : State) (n : Nat) : State × List Byte :=
  ({ s with ctl := { s.ctl with free := s.ctl.free + n } }, (List.range n).map fun i => Config.freeByte (s.ctl.free + i))

/-- Bytes that a host-window access reads or writes. -/
def Op.bytes (o : Op) : Nat := o.elems.foldl (fun n e => n + e.n) 0

/-- A host-window access whose event is declined, or that fails a check: its fate is not stated; a read answers with free
bytes, a write has no effect (log 35). -/
def State.hostFail (s : State) (o : Op) : State :=
  if o.isStore then s
  else
    let (s, bs) := s.freeBytes o.bytes
    s.emit (.windowData bs)

/-- An entry of a group's matrix queue fails: the warps that issued it and the later entries, which are discarded, trap
(09 R279). The record of each names the faulting entry's words (log 84). -/
def State.trapEntries (s : State) (gk wk : Nat) (t : TrapInfo) (f : MEnt → Bool) : State :=
  let later := match kget s.groups gk with
    | some g => (g.mq.dropWhile fun e => !f e).map (·.wk)
    | none => []
  s.together fun s => (wk :: later).foldl (fun s x => s.takeTrap x t) s

/-- An operation ends with a cause (15 R378, R386, R395; 16 Table 16-3; 17 R426, R427): a warp or mending core traps at its
instruction, a prefetch or probe is dropped; its requests that are still out are waited for (15 R383 step 7). A line of code that cannot be fetched traps the instruction that asks for it
(04 R436). -/
def State.failOp (s : State) (k : Nat) (o : Op) (cause detail va aux : Nat) (lanes : Lanes) : State :=
  let origin := match o.kind with
    | .acc (.tile _ _) => 2
    | .acc _ => 0
    | .async .. => 1
  let aux := match o.kind with
    | .acc (.tile false r) => r
    | _ => aux
  let t : TrapInfo := { cause := cause, origin := origin, detail := detail, aux := aux, lanes := if origin == 0 then lanes else 0, va := va, insn := o.insn }
  let t := match o.kind with
    | .acc (.fetch v) => { t with va := v, lanes := o.lanes }
    | _ => t
  let s := { s with ops := match o.leftOut with
    | some r => kset s.ops k r
    | none => kdel s.ops k }
  match o.kind with
  | .acc .pref => s
  | _ =>
    match o.who with
    | .fold => s
    | .warp wk => match o.kind with
      | .acc (.tile _ _) => s.trapEntries o.gk wk t fun e => e.op == some k
      | _ => s.takeTrap wk t
    | .mend m => s.takeTrapMend m t
    | .queue q =>
      if o.kind == .acc .recRd then s.modQueue q fun r => r.stopAt errRead else s.packetFault k cause
    | .landing w => s.landFault k w cause detail ((o.elems.head?.map (·.va)).getD va)
    | .host _ => s.hostFail o
    | .orphan => if o.kind == .acc .probe then s.frameFault o.gk cause detail va else s

/-! ### Several failed requests of one instruction (15 R378) -/

/-- Whether the cause waits for the answers of every request: for an access that a warp or mending core issued. -/
def Op.gathers (o : Op) : Bool :=
  match o.kind, o.who with
  | .acc a, .warp _ => a != .pref
  | .acc a, .mend _ => a != .pref
  | _, _ => false

/-- Whether a request of the operation is unanswered. -/
def Op.awaited (o : Op) : Bool := !o.hold.isEmpty || !o.want.isEmpty || o.elems.any fun e => e.sent && !e.done

/-- The failed request of the lowest address. -/
def lowestFail (l : List FailedReq) : Option FailedReq :=
  let addr := fun (f : FailedReq) => f.els.foldl (fun m e => min m e.2) (2 ^ 64)
  l.foldl (fun a f => match a with
    | some b => if addr f < addr b then some f else a
    | none => some f) none

/-- Lanes and addresses that met a cause. -/
def metCause (l : List FailedReq) (cause : Nat) : List (Nat × Nat) := (l.filter fun f => f.cause == cause).flatMap (·.els)

/-- The address of the lowest lane. -/
def lowestVa (els : List (Nat × Nat)) : Nat := match els with
  | [] => 0
  | e :: r => (r.foldl (fun a b => if b.1 < a.1 then b else a) e).2

/-- The operation ends with the cause of its failed request of the lowest address; LANES holds the lanes that met that
cause, VA the address of the lowest of them. -/
def State.failAll (s : State) (k : Nat) (o : Op) (aux : Nat) : State :=
  match lowestFail o.fails with
  | none => s
  | some f =>
    let els := metCause o.fails f.cause
    s.failOp k o f.cause f.detail (lowestVa els) aux (lanesMask (els.map (·.1)))

/-- Requests of an operation fail: it ends, once no other request of an access is unanswered. -/
def State.gather (s : State) (k : Nat) (o : Op) (aux : Nat) (fs : List FailedReq) : State :=
  let o := { o with fails := o.fails ++ fs }
  if o.gathers && o.awaited then { s with ops := kset s.ops k o } else s.failAll k o aux

/-- A failed request over elements. -/
def failedOf (cause detail : Nat) (es : List Elem) : FailedReq := { cause := cause, detail := detail, els := es.map fun e => (e.lane, e.va) }

/-! ### Requests to the host (11 R326, R327) -/

/-- AtomicOp of a function and type, by HOSTACAP bit (11 R326; Table 11-3). -/
def hostAtomBit (fn ty : Nat) : Option Nat :=
  let int := ty == 2 || ty == 3 || ty == 6 || ty == 7
  let w := if ty % 4 == 3 then 1 else 0
  if fn == 0 then (if int then some w else none)
  else if fn == 6 then (if int then some (2 + w) else none)
  else if fn == 7 then (if esize ty == 8 then some 5 else some 4)
  else none

/-- The host address of an element. -/
def Elem.hostAt (e : Elem) : Nat := match e.place with
  | some (.host a _) => a
  | _ => 0

/-- Marks elements of an operation as sent. -/
def State.markSent (s : State) (k : Nat) (xs : List (Nat × Elem)) : State :=
  xs.foldl (fun s x => s.setElem k x.1 { x.2 with sent := true }) s

/-- A request to the host gets a number and waits for its answer (11 R326). -/
def State.hostAsk (s : State) (k : Nat) (xs : List (Nat × Elem)) (addr n : Nat) (out : Nat → Out) : State :=
  let id := s.opNo
  let s := (s.markSent k xs).bumpOp
  let r : HostReq := { op := k, elems := xs.map (·.1), n := n, warp := none, addr := addr }
  let s := { s with host := { s.host with reqs := kset s.host.reqs id r } }
  s.emit (out id)

/-- The bytes of the elements of one 64-byte block as an entry of the write buffer (11 R327). -/
def hostEntry (k : Nat) (o : Op) (xs : List (Nat × Elem)) : HostWr :=
  let base := (xs.head?.map fun x => x.2.hostAt / 64 * 64).getD 0
  let cells := xs.flatMap fun x => (leBytes x.2.n x.2.data.toNat).mapIdx fun i b => (x.2.hostAt - base + i, b)
  let mem := cells.foldl (fun (m : Memory) c => mset m c.1 c.2) []
  { addr := base, data := mread mem 0 64, mask := BitVec.ofNat 64 (cells.foldl (fun m c => m ||| 2 ^ c.1) 0), who := o.who,
    gk := o.gk, op := k, elems := xs.map (·.1) }

/-- Progress of an operation for AUX (15 R386; 07 R219): the k at which it stopped; 0 for a CPX. -/
def Op.progress (o : Op) : Nat :=
  match o.kind with
  | .async (.cpx ..) _ _ _ _ _ => 0
  | .async _ k _ _ _ _ => k
  | .acc _ => 0

/-- A host-homed store is dropped and logged (17 R424, R425). -/
def HostPort.lose (h : HostPort) (a : Nat) : HostPort :=
  { h with loss := BitVec.ofNat 32 (satAdd 0xFFFFFFFF h.loss.toNat),
           log := sset 0 h.log (h.loss.toNat % 256) (BitVec.ofNat 64 (a / 64 * 64)) }

/-- Host-homed elements of a store, of one 64-byte block, issued while the link is down: they are dropped and logged as one
entry, and the group is marked (17 R424, R425). -/
def State.loseHost (s : State) (k : Nat) (o : Op) (xs : List (Nat × Elem)) : State :=
  let a := (xs.head?.map fun x => x.2.hostAt).getD 0
  (xs.foldl (fun (s : State) x => s.setElem k x.1 { x.2 with done := true }) { s with host := s.host.lose a }).modGroup o.gk fun g =>
    { g with hostMark := true }

/-- Host-homed elements of one block of an operation: a read or AtomicOp goes out, a store enters the write buffer when it
has room (11 R326, R327). While the link is down a store is dropped, and a read or AtomicOp ends (17 R424). -/
def State.sendHost (s : State) (k : Nat) (o : Op) (xs : List (Nat × Elem)) : State :=
  match xs with
  | [] => s
  | (_, e) :: _ =>
    if !s.host.up then
      if o.isStore then s.loseHost k o xs else s.gather k o o.progress [failedOf cHostDown 0 (xs.map (·.2))]
    else if o.isStore then
      if s.host.buf.length < Config.hostBuffer then
        { s.markSent k xs with host := { s.host with buf := s.host.buf ++ [hostEntry k o xs] } }
      else s
    else match o.kind with
    | .acc (.atom fn ty ..) => s.hostAsk k xs e.hostAt e.n fun id => .hostAtomic id e.hostAt fn ty e.data e.swap
    | _ =>
      let blk := e.hostAt / 128 * 128
      let lo := xs.foldl (fun m x => min m (x.2.hostAt - blk)) 127
      let hi := xs.foldl (fun m x => max m (x.2.hostAt + x.2.n - 1 - blk)) 0
      let rg := regionOf lo hi
      s.hostAsk k xs (blk + rg.1) (16 * 2 ^ rg.2) fun id => .hostRead id (blk + rg.1) (16 * 2 ^ rg.2)

/-- Groups of one request split into the 64-byte blocks of the write buffer. -/
def hostBlocks (o : Op) (xs : List (Nat × Elem)) : List (List (Nat × Elem)) :=
  let gs := blocksOf o.isAtom xs
  if !o.isStore then gs
  else gs.flatMap fun g => [g.filter fun (x : Nat × Elem) => x.2.hostAt / 64 % 2 == 0, g.filter fun (x : Nat × Elem) => x.2.hostAt / 64 % 2 == 1].filter (!·.isEmpty)

/-- Elements of an operation that are to go to a peer or to the host, with their numbers. -/
def State.toSend (s : State) (o : Op) : List (Nat × Elem) :=
  ((List.range o.elems.length).zip o.elems).filter fun x =>
    !x.2.done && !x.2.sent && (x.2.toHost || (match x.2.place with
      | some p => s.remote p
      | none => false))

/-- One request leaves. The bytes of a store go to the host once its other bytes are home (07 R191). -/
def State.sendOne (s : State) (k : Nat) (g : List (Nat × Elem)) : State :=
  match kget s.ops k with
  | none => s
  | some o =>
    if !o.fails.isEmpty then s
    else if !(g.any fun x => x.2.toHost) then s.sendBlock k o g
    else if o.isStore && (s.abroad o || !(s.localPlaces o).isEmpty) then s
    else (hostBlocks o g).foldl (fun s h => s.sendHost k o h) s

/-- The requests of one instruction leave in ascending address order, each whole (03 R74): one that an earlier access of the
issuer holds keeps back the later ones. -/
def State.sendBlocks (s : State) (k : Nat) (who : Who) : List (List (Nat × Elem)) → State
  | [] => s
  | g :: r => if g.any fun x => s.blocked k who x.2 then s else (s.sendOne k g).sendBlocks k who r

/-- Sends what of an operation goes to a peer or to the host now. -/
def State.pumpOp (s : State) (k : Nat) : State :=
  match kget s.ops k with
  | none => s
  | some o =>
    if !o.hold.isEmpty || !o.want.isEmpty || !o.fails.isEmpty || !o.isAcc then s
    else s.sendBlocks k o.who (blocksOf o.isAtom (s.toSend o))

/-- The same over every operation of an issuer, in issue order. -/
def State.pump (s : State) (who : Who) : State :=
  (s.ops.filter fun o => o.2.who == who).foldl (fun s o => s.pumpOp o.1) s

/-! ### Tables that a translation walks -/

/-- A table entry of a page under a forward is asked of its new home (11 R338). -/
def State.askEntry (s : State) (a : Nat) (f : Forward) : State :=
  if (s.ops.any fun o => o.2.kind == .acc (.walkRd a)) || !s.fab.anyUp then s
  else
    let e := { Elem.virt 0 a 8 0 0 0 with place := some (.peer f.peer (f.topg * 65536 + a % 65536) false false) }
    (s.newOp (foldOp 0 (.walkRd a) [e])).pumpOp s.opNo

/-- The table entry at an address is made ready, or what it waits for has been asked for. -/
def State.entryGate (s : State) (free : Bool) (a : Nat) : State × Bool :=
  match s.mem.forward a with
  | some f => (s.askEntry a f, false)
  | none => s.gateFor free s.opNo (.loc a .loc)

/-- The table entries that translations wait for are asked for: whether every walk can be made now (03 R62, R72;
08 R257; 11 R338); free is set for a mending core. No hold lists a walk among the requests that came before it. -/
def State.walkGate (s : State) (ctx : Nat) (vas : List Nat) (free : Bool := false) : State × Bool :=
  (vas.filterMap fun va => if 2 ^ 57 ≤ va then none else s.walkWaits ctx va free).foldl
    (fun (r : State × Bool) a => let (t, ok) := r.1.entryGate free a; (t, ok && r.2)) (s, true)

/-- The number of an agent among those that wait at issue: a warp's key, or past every key a mending core. -/
def Agent.stallKey : Agent → Nat
  | .warp wk => wk
  | .mend m => 2 ^ 20 + m

/-- The issuing agent waits for the fill of a sector: what is known if that fill times out (16 R405). -/
def State.stall (s : State) (sec va kind : Nat) : State :=
  match s.ctl.cur with
  | some a =>
    if s.mem.filling sec then
      { s with mem := { s.mem with stalled := kset s.mem.stalled a.stallKey { sec := sec, insn := s.ctl.insn, va := va, kind := kind } } }
    else s
  | none => s

/-- The same for a table that the translation of one of some addresses walks: the walk's KIND is 10 (03 R75). -/
def State.stallWalk (s : State) (ctx : Nat) (vas : List Nat) (free : Bool := false) : State :=
  match vas.findSome? fun va => (s.walkWaits ctx va free).map fun a => (a, va) with
  | some (a, va) => s.stall (a / 4096) va 10
  | none => s

/-! ### Counters and fold schedules (03 R70, R71, R83, R84) -/

/-- n bytes of a context's virtual memory, read at home in one step; none when an address fails its checks, lies at
another home, or waits for its sector or line. -/
def State.readVirt (s : State) (ctx kind va n : Nat) : Option (List Byte) :=
  if (s.walkWaits ctx va).isSome then none
  else match s.check ctx kind false va with
  | .ok (.loc a k) _ _ => if (s.gate s.opNo (.loc a k)).2 && (s.mem.forward a).isNone then some ((List.range n).map fun i => s.mem.byte (a + i)) else none
  | .ok (.carve a) _ _ => if (s.gate s.opNo (.carve a)).2 then some (mread s.mem.carve a n) else none
  | _ => none

/-- A step of a fold's schedule, as its 128 bits, when the fold's count has reached its threshold (03 Table 3-12): its action
is taken and the pointer goes on. Whether it fired. -/
def State.foldFire (s : State) (ctx f st : Nat) : State × Bool :=
  match (kget s.grids ctx).bind fun g => kget g.folds f with
  | none => (s, false)
  | some r =>
    if r.count < bitsOf st 96 32 then (s, false)
    else
      let act := bitsOf st 62 2
      let s := if act < 2 then s.foldRegion ctx r.bits (bitsOf st 64 16) (bitsOf st 80 16) (act == 0) else s
      (s.modGrid ctx fun g => { g with folds := kmod g.folds f fun r => { r with k := r.k + 1 } }, true)

/-- Virtual address of the step at a fold's pointer; none when the schedule is at its end. -/
def State.foldStepAt (s : State) (ctx f : Nat) : Option Nat :=
  (kget s.grids ctx).bind fun g => (kget g.folds f).bind fun r =>
    if foldFirst r.bits + foldNstep r.bits ≤ r.k then none
    else some (bitsOf g.foldbase.toNat 16 41 * 65536 + 0x40000 + 16 * r.k)

/-- The read of a step of a fold's schedule as a request of the prefetch engine: for a table that is not at hand. -/
def State.askStep (s : State) (ctx f va : Nat) : State :=
  if s.ops.any fun e => e.2.ctx == ctx && e.2.kind == .acc (.foldStep f) then s
  else s.newOp (foldOp ctx (.foldStep f) [Elem.virt 0 va 8 0 0 0, Elem.virt 0 (va + 8) 8 0 0 0])

/-- The schedule loop of a fold (03 R84), at most fuel steps. -/
def State.foldRun (s : State) (ctx f : Nat) : Nat → State
  | 0 => s
  | fuel + 1 =>
    match s.foldStepAt ctx f with
    | none => s
    | some va =>
      match s.readVirt ctx 0 va 16 with
      | none => s.askStep ctx f va
      | some bs => match s.foldFire ctx f (leNat bs) with
        | (s, true) => s.foldRun ctx f fuel
        | (s, false) => s

/-- Steps that a fold's schedule has. -/
def State.foldFuel (s : State) (ctx f : Nat) : Nat :=
  match (kget s.grids ctx).bind fun g => kget g.folds f with
  | some r => foldNstep r.bits + 1
  | none => 0

/-- A step of a schedule that was read as a request: it fires when the count has reached it, and the loop goes on. -/
def State.foldStepDone (s : State) (ctx f st : Nat) : State :=
  match s.foldFire ctx f st with
  | (s, true) => s.foldRun ctx f (s.foldFuel ctx f)
  | (s, false) => s

/-- Counts one request to the page of an address, on the side of a lining that it uses (03 R70, R83), and takes what the
count triggers: the record of a migration (03 R71), a step of a fold's schedule (03 R84). -/
def State.countReq (s : State) (ctx kind va : Nat) (x : Src) (l : DWord) (big : Bool) : State :=
  let (s, old, n) := s.bump ctx va big
  let thr := match s.ctxInfo ctx with
    | some c => bitsOf c.root.toNat 48 16
    | none => 0
  let s := if leafMode l == 3 && thr != 0 && n == thr && old != thr then s.postNote ctx x { reason := 2, kind := kind, va := va } else s
  match (kget s.grids ctx).bind fun g => kget g.folds (leafFold l) with
  | none => s
  | some _ =>
    let f := leafFold l
    let s := s.modGrid ctx fun g => { g with folds := kmod g.folds f fun r => { r with count := satAdd 0xFFFFFFFF r.count } }
    s.foldRun ctx f (s.foldFuel ctx f)

end Sys2Proof.Machine
end

