-- ==== Sys2Proof/Machine/Complete.lean ====
section
/-! DEFINITION. The life of a class 4 access (07 R191; 03 R77): translation with its demand events, issue, replay, the
landing of its results and its completion. -/

namespace Sys2Proof.Machine

open Host

/-! ### Translation of an operation -/

/-- Access kind of an operation's records (03 Table 3-8). -/
def Op.kindCode (o : Op) : Nat :=
  match o.kind with
  | .acc .store => match o.who with
    | .landing _ => 9
    | _ => 1
  | .acc (.atom ..) => 2
  | .acc (.fetch _) => 3
  | .acc .pref => 8
  | .acc (.foldPages fetch _) => if fetch then 8 else 11
  | .acc (.foldStep _) => 8
  | .acc (.tile wr _) => if wr then 5 else 4
  | _ => 0

/-- What the header of a darned slot of 32 bytes says of its second half, which the element e asks for with swap = 1: none until
the header is read, else whether more than 12 elements are present, so that a load reads it (03 R86). -/
def Op.slotFull (o : Op) (e : Elem) : Option Bool :=
  (o.elems.find? fun h => h.reg == e.reg && h.va == e.va / 32 * 32 && h.done).map fun h =>
    decide (12 < ((List.range 24).filter fun i => bitAt (h.got.getD 0).toNat i).length)

/-- Whether an element may be translated: of a TLD, those of rows up to the row-progress value, the second half of a slot
only when the header calls for it (03 R86; 09 R282); reg is the row. -/
def Op.opened (o : Op) (e : Elem) : Bool := match o.kind with
  | .acc (.tile false row) => decide (e.reg ≤ row) && (e.swap == 0 || o.slotFull e == some true)
  | _ => true

/-- Whether a TLD has no use for an element: the second half of a slot whose header does not call for it. -/
def Op.needless (o : Op) (e : Elem) : Bool := match o.kind with
  | .acc (.tile false _) => e.swap != 0 && o.slotFull e == some false
  | _ => false

/-- Whether an operation writes the side of a lined region that is not in force (07 R224; 09 R277). -/
def Op.lineWr (o : Op) : Bool := match o.kind with
  | .acc (.tile true _) => true
  | _ => false

/-- Whether an asynchronous operation writes the side of a lined region that is not in force: CPX, CGAT, CSCT and CRED do, a
completion word does not (07 R224). -/
def AWork.lines : AWork → Bool
  | .cpx .. => true
  | .row .. => true
  | .csct .. => true
  | .cred .. => true
  | _ => false

/-- Whether an element of an operation is a lined write. -/
def Op.linesElem (o : Op) (e : Elem) : Bool := match o.kind with
  | .async w _ _ _ _ _ => w.lines && e.lane == 1
  | .acc _ => o.lineWr

/-- On a replay, every request of the row at which a TLD stopped is issued again (09 R282); of those that are out the answers
are awaited. -/
def Op.resetRow (o : Op) : Op :=
  match o.kind with
  | .acc (.tile false row) =>
    { o with elems := o.elems.map fun e =>
        if (e.reg == row && (e.done || !e.sent)) = true then { e with place := none, got := none, done := false, sent := false } else e }
  | _ => o

/-- Elements that are to be translated, with their numbers. -/
def Op.openList (o : Op) : List (Nat × Elem) :=
  ((List.range o.elems.length).zip o.elems).filter fun x => !x.2.done && x.2.place == none && o.opened x.2

/-- Elements still without a place, with their numbers and checks. -/
def State.openElems (s : State) (o : Op) : List (Nat × Elem × Chk) :=
  o.openList.map fun x => (x.1, x.2, s.check o.ctx o.kindCode o.lineWr x.2.va)

/-- Whether the tables that an operation's translations walk are at hand; what they wait for has been asked for. -/
def State.walksReady (s : State) (o : Op) : State × Bool :=
  s.walkGate o.ctx (o.openList.map fun x => s.lined o.ctx x.2.va o.lineWr)

/-- The issuing agent waits for the tables of an operation's translations. -/
def State.stallOp (s : State) (o : Op) : State := s.stallWalk o.ctx (o.openList.map fun x => s.lined o.ctx x.2.va o.lineWr)

/-- A wish per page and reason. -/
def addWish (l : List Wish) (w : Wish) : List Wish :=
  if l.any fun x => x.va / 2 ^ 16 == w.va / 2 ^ 16 && x.reason == w.reason then l else l ++ [w]

/-- Wishes of a list of checks. -/
def wishesOf (cs : List (Nat × Elem × Chk)) : List Wish :=
  cs.foldl (fun l x => match x.2.2 with
    | .event w => addWish l w
    | _ => l) []

/-- Elements whose check fails a permission. -/
def protElems (cs : List (Nat × Elem × Chk)) : List Elem :=
  cs.filterMap fun x => match x.2.2 with
    | .prot => some x.2.1
    | _ => none

/-- The address of the lowest lane among elements, which stand in lane order (15 R378). -/
def headVa (es : List Elem) : Nat := match es with
  | [] => 0
  | e :: _ => e.va

/-- What an issuer's own earlier store or exchange of a byte range holds of it, when it is the latest before operation k
that meets the range, and has not been applied (08 R247). -/
def State.forwarded (s : State) (k : Nat) (who : Who) (e : Elem) : Option DWord :=
  let own := s.ops.filter fun o => decide (o.1 < k) && o.2.who == who && o.2.ordered
  let cand := own.flatMap fun o => (o.2.elems.filter fun x => !x.done && s.holds x e).map fun x => (o.2, x)
  match cand.getLast? with
  | none => none
  | some (o, x) =>
    let known : Bool := match o.kind with
      | .acc .store => true
      | .acc (.atom fn ..) => fn == 6
      | _ => false
    if known && (match x.place with
      | some p => !s.inRecord (s.homePlace p)
      | none => false) && o.hold.isEmpty && o.want.isEmpty && o.fails.isEmpty && decide (x.va ≤ e.va) && decide (e.va + e.n ≤ x.va + x.n) then
      some (BitVec.ofNat 64 (bitsOf x.data.toNat (8 * (e.va - x.va)) (8 * e.n)))
    else none

/-- What serves a load of a warp without its home: a valid sector of its core's L1 (08 R248), unless an earlier access of
the issuer holds it; or, when the choice of the step says so, the issuer's own earlier store (08 R247). -/
def State.hit (s : State) (k : Nat) (o : Op) (e : Elem) (p : Place) : Option DWord :=
  match o.kind, whoCore o.who with
  | .acc (.load true _ _), some c =>
    if s.blocked k o.who e then (if s.choice / 2 % 2 == 1 then s.forwarded k o.who e else none)
    else (s.core c).l1Read (s.frontOf o.ctx e.va) p e.n
  | _, _ => none

/-- Elements take their places; a load that its core can serve is served at once. -/
def State.placeElems (s : State) (k : Nat) (o : Op) (cs : List (Nat × Elem × Chk)) : State :=
  cs.foldl (fun s x => match x.2.2 with
    | .ok p l big =>
      let e := { x.2.1 with place := some p }
      let e := match s.hit k o e p with
        | some v => { e with got := some v, done := true }
        | none => e
      (s.setElem k x.1 e).keepXlat o.ctx (s.lined o.ctx x.2.1.va o.lineWr) (.leaf l big)
    | _ => s) s

/-- Whether an operation reads the rows of a TLD. The second half of a darned slot is counted with its header (03 R86). -/
def Op.isTld (o : Op) : Bool := match o.kind with
  | .acc (.tile false _) => true
  | _ => false

/-- Whether the requests of an access are counted: those of a core or of a matrix unit are, which leave the issuing core; those
of queues, of the landing port, of the host, of the prefetch engine and of the device itself are none of them (03 R70). -/
def Op.counted (o : Op) : Bool := match o.who with
  | .warp _ => true
  | .mend _ => true
  | _ => false

/-- One count for each 128-byte block that a request leaves the core for, on the side of a lining that it uses (03 R70,
R74). -/
def State.countBlocks (s : State) (k : Nat) (o : Op) (x : Src) (cs : List (Nat × Elem × Chk)) : State :=
  if !o.counted then s else
  let hitDone := fun (i : Nat) => match kget s.ops k with
    | some o' => match o'.elems[i]? with
      | some e => e.done
      | none => true
    | none => true
  let bs := cs.foldl (fun (l : List (Nat × DWord × Bool)) y => match y.2.2 with
    | .ok (.host _ _) _ _ => l
    | .ok _ lf big =>
      if o.isTld && y.2.1.swap != 0 then l else
      let va := s.lined o.ctx y.2.1.va o.lineWr
      if hitDone y.1 || l.any (fun b => b.1 / 128 == va / 128) then l else l ++ [(va, lf, big)]
    | _ => l) []
  bs.foldl (fun s b => s.countReq o.ctx o.kindCode b.1 x b.2.1 b.2.2) s

/-! ### Requests for sectors alone (03 R84; 07 R207) -/

/-- Whether an operation asks for sectors or sends them back, and reads or writes no byte: PREF, and the prefetch engine's
fetch or release of pages. -/
def Op.asks (o : Op) : Bool := match o.kind with
  | .acc .pref => true
  | .acc (.foldPages _ _) => true
  | _ => false

/-- Whether an operation is the release of a fold's pages. -/
def Op.releases (o : Op) : Bool := match o.kind with
  | .acc (.foldPages false _) => true
  | _ => false

/-- A fold's page is released: its dirty sectors are sent back, and its frame is the first to be evicted (03 R84). -/
def State.releasePage (s : State) (a : Nat) : State :=
  let s := (pageSectors a).foldl (fun s j => s.sendBack j) s
  let f := kgetD s.mem.frames (a / 65536) { evict := false, stack := none }
  { s with mem := { s.mem with frames := kset s.mem.frames (a / 65536) { f with evict := true } } }

/-- Whether an operation waits for the fill of a sector that has not been asked for. -/
def State.wantsFill (s : State) (o : Op) : Bool :=
  o.hold.isEmpty && o.want.isEmpty && o.elems.any fun e => !e.done && (match e.place.map s.homePlace with
    | some (.loc a _) => !s.mem.valid a && !(s.mem.sec (a / 4096)).lost && !s.mem.filling (a / 4096) && (s.mem.leaseAt a).live
    | _ => false)

/-- Whether the fill that a prefetch asks for is behind others: those of every access, and those of prefetches of a fold of
higher PRIO (03 R84). -/
def State.fillBehind (s : State) (o : Op) : Bool :=
  s.ops.any fun x => s.wantsFill x.2 && (!x.2.asks || (match x.2.kind, o.kind with
    | .acc (.foldPages true p), .acc (.foldPages true q) => decide (q < p)
    | _, _ => false))

/-- An element of a request for sectors, at its place: done once the sector is valid, or at once where no page cache of
this device holds the page. -/
def State.serveAsk (s : State) (k i : Nat) (o : Op) (e : Elem) : State :=
  match e.place.map s.homePlace with
  | some (.loc a _) =>
    if o.releases then (s.releasePage a).setElem k i { e with done := true }
    else if s.mem.valid a || (s.mem.sec (a / 4096)).lost || (leaseReason (s.mem.leaseAt a)).isSome then s.setElem k i { e with done := true }
    else if s.fillBehind o then s
    else s.askFill (a / 4096)
  | _ => s.setElem k i { e with done := true }

/-- The same for elements that have just been translated: one that fails a check is dropped with no trap, and a release
posts no event. -/
def State.placeAsks (s : State) (k : Nat) (o : Op) (cs : List (Nat × Elem × Chk)) : State :=
  cs.foldl (fun s x => match x.2.2 with
    | .ok p l big =>
      let e := { x.2.1 with place := some p }
      ((s.setElem k x.1 e).serveAsk k x.1 o e).keepXlat o.ctx (s.lined o.ctx e.va false) (.leaf l big)
    | .prot => s.setElem k x.1 { x.2.1 with done := true }
    | .event _ => if o.releases then s.setElem k x.1 { x.2.1 with done := true } else s) s

/-- Translates what a request for sectors has not translated yet. -/
def State.transAsk (s : State) (k : Nat) (o : Op) (cs : List (Nat × Elem × Chk)) (x : Src) : State :=
  let (s, tags, ws) := s.postAll o.ctx x (if o.releases then [] else wishesOf cs)
  let s := ({ s with ops := kmod s.ops k fun o => { o with hold := tags, want := ws } }).placeAsks k o cs
  match kget s.ops k with
  | some o => if o.hold.isEmpty && o.want.isEmpty && o.elems.all (·.done) then { s with ops := kdel s.ops k } else s
  | none => s

/-- Why an element is turned away before it leaves (11 R326; 17 R421, R424): cause and DETAIL. -/
def State.refusedAt (s : State) (o : Op) (p : Place) : Option (Nat × Nat) :=
  match (s.homePlace p).target with
  | some (n, _, _) => if s.fab.anyUp then none else some (cPlane, n)
  | none =>
    match p with
    | .host _ _ =>
      if o.isStore then none
      else match o.kind with
      | .acc (.atom fn ty ..) =>
        let ok : Bool := match hostAtomBit fn ty with
          | some b => s.mgmt.hostacap.getLsbD b
          | none => false
        if !ok then some (cUnsupported, s.mgmt.peernum.toNat) else if s.host.up then none else some (cHostDown, 0)
      | _ => if s.host.up then none else some (cHostDown, 0)
    | _ => none

/-- Elements about to leave, with what turns each away. -/
def State.refusals (s : State) (o : Op) (cs : List (Nat × Elem × Chk)) : List (Elem × Nat × Nat) :=
  let placed := o.elems.filterMap fun e =>
    if e.done || e.sent then none else e.place.map fun p => (e, p)
  let fresh := cs.filterMap fun x => match x.2.2 with
    | .ok p _ _ => some (x.2.1, p)
    | _ => none
  (placed ++ fresh).filterMap fun x => (s.refusedAt o x.2).map fun r => (x.1, r)

/-- Host-homed stores of an operation issued while the link is down are dropped; the group is marked (17 R424). -/
def State.dropHost (s : State) (k : Nat) : State :=
  if s.host.up then s
  else match kget s.ops k with
    | none => s
    | some o =>
      if !o.isStore then s
      else (hostBlocks o ((s.toSend o).filter fun x => x.2.toHost)).foldl (fun s g => s.loseHost k o g) s

/-- Whether an operation is a store of a save: what would hold it, but for an ended lease, fails the save (10 R312;
16 R412). -/
def State.handlerStore (s : State) (o : Op) : Bool :=
  match o.who, o.kind with
  | .warp wk, .acc .store => match kget s.warps wk with
    | some w => w.handler
    | none => false
  | _, _ => false

/-- Trap cause of the shipped meaning of a reason, for accesses that post no event (07 R194). -/
def reasonCause (r : Nat) : Nat := match r with
  | 4 => cExpired
  | 5 => cRevoked
  | 6 => cNodeLost
  | _ => cTranslation

/-- A record that the device answers itself at once (16 R412). -/
def State.postShut (s : State) (ctx : Nat) (x : Src) (w : Wish) : State :=
  if (s.joined ctx w).isSome then s
  else match s.postDemand ctx x w with
    | (s, some t) => s.modMend (t / 1024) fun m => { m with dem := kdel m.dem (t % 1024) }
    | (s, none) => s

/-- Whether an access that changes memory has been performed in part: it goes on to its end (07 R191). -/
def Op.begun (o : Op) : Bool := o.changes && o.elems.any (·.done)

/-- Elements of an access that has begun and that cannot be performed any more: no trap may leave the access in part, so they
count as performed, and are lost as the extent's other bytes are (07 R191; 16 R401; log 103). What an atomic would have read
is a value that the manual does not state (log 35). -/
def State.loseElems (s : State) (k : Nat) (f : Elem → Bool) : State :=
  let (s, bs) := s.freeBytes 8
  let v := BitVec.ofNat 64 (leNat bs)
  { s with ops := kmod s.ops k fun o => { o with elems := o.elems.map fun e => if f e && !e.done then { e with got := some v, done := true } else e } }

/-- An element of a k that has begun to be written cannot be performed any more: it counts as performed, and is lost as the
extent's other bytes are, since the operation stops at no part of a k (15 R386; 16 R401; log 103). -/
def Op.midWrite (o : Op) (e : Elem) : Bool := e.lane == 1 && o.elems.any fun y => y.reg == e.reg && y.lane == 1 && y.done

/-- What the checks of an access's elements lead to: a trap for what fails a permission, demand events for what cannot be
completed, a refusal of what no link can carry; the rest is sent or waits for its home (07 R191; 03 R77). -/
def State.transAcc (s : State) (k : Nat) (o : Op) (cs : List (Nat × Elem × Chk)) (x : Src) : State :=
  let bad := protElems cs
  if !bad.isEmpty then
    if o.begun then s.loseElems k fun e => bad.contains e else s.failOp k o cProtection 0 (headVa bad) 0 (elemLanes bad)
  else match (wishesOf cs).filter (fun w => s.handlerStore o && !(decide (4 ≤ w.reason) && decide (w.reason ≤ 6))), wishesOf cs with
  | w :: _, _ => (s.postShut o.ctx x w).failOp k o cTranslation 0 w.va 0 o.lanes
  | [], ws =>
    match s.refusals o cs with
    | y :: r =>
      if o.begun then s.loseElems k fun e => (y :: r).any fun z => z.1 == e else
      let (s, tags, ws) := s.postAll o.ctx x (if o.gathers then ws else [])
      s.gather k { o with hold := tags, want := ws } 0 ((y :: r).map fun z => failedOf z.2.1 z.2.2 [z.1])
    | [] =>
      let (s, tags, ws) := s.postAll o.ctx x ws
      let s := { s with ops := kmod s.ops k fun o => { o with hold := tags, want := ws } }
      (((s.placeElems k o cs).countBlocks k o x cs).dropHost k).pumpOp k

/-- Entries of tables under a forward that are not valid are read again by the next walk (03 R68). -/
def MemSys.dropAbsent (m : MemSys) : MemSys := { m with farEnts := kfilter (fun _ e => bitAt e 0) m.farEnts }

/-- Translates what is not yet translated, once the tables that it walks are at hand. -/
def State.transOp (s : State) (k : Nat) : State :=
  match kget s.ops k with
  | none => s
  | some o =>
    if !o.fails.isEmpty then s else
    match s.walksReady o with
    | (s, false) => s
    | (s, true) =>
      let cs := s.openElems o
      let s := { s with mem := s.mem.dropAbsent }
      let x := s.srcOf o.who o.ctx none
      if o.asks then s.transAsk k o cs x else s.transAcc k o cs x

/-- An operation is translated again after its events (03 R77 step 5). -/
def State.replayOp (s : State) (k : Nat) : State := { s with ops := kmod s.ops k Op.resetRow }.transOp k

/-! ### Issue -/

/-- An element with its place known. -/
def Elem.at_ (lane va n : Nat) (p : Place) (data swap : DWord) (reg : Nat) : Elem :=
  { Elem.virt lane va n data swap reg with place := some p }

/-- An element whose result is known. -/
def Elem.known (lane n reg : Nat) (v : DWord) : Elem :=
  { Elem.virt lane 0 n 0 0 reg with got := some v, done := true }

/-- An operation of the issuing warp. -/
def State.warpAcc (s : State) (wk : Nat) (w : Warp) (c : ClausePos) (a : Acc) (es : List Elem) (slot : Option Nat) : Op :=
  { who := .warp wk, ctx := gkGrid w.gk, gk := w.gk, insn := s.ctl.insn, kind := .acc a, lanes := c.act, slot := slot,
    elems := es, hold := [], want := [], epoch := (s.core (wkCore wk)).epoch }

/-- Context of a warp: its grid, or its partition's supervisor context. -/
def Warp.ctx (w : Warp) : Nat := gkGrid w.gk

/-- A count of 63 holds the instruction at issue (04 R99). -/
def slotFull (w : Warp) (slot : Option Nat) : Bool := match slot with
  | some k => decide (Config.slotMax ≤ w.slot k)
  | none => false

def Warp.up (w : Warp) (slot : Option Nat) : Warp := match slot with
  | some k => w.slotUp k
  | none => w

def Warp.down (w : Warp) (slot : Option Nat) : Warp := match slot with
  | some k => w.slotDown k
  | none => w

/-- An acquire by an atomic of the issuer that has not ended: later accesses wait (07 R202, R205). -/
def State.acqPending (s : State) (who : Who) : Bool :=
  s.ops.any fun o => o.2.who == who && (match o.2.kind with
    | .acc (.atom _ _ _ _ acq _) => acq == 1 || acq == 3
    | _ => false)

/-- Adds an operation. -/
def State.addOp (s : State) (o : Op) : State := s.newOp o

/-- The end of an issue: the operation is added, its slot raised, the warp goes on, and translation starts. -/
def issueOp (s : State) (wk : Nat) (w : Warp) (c : ClausePos) (o : Op) : Res :=
  let k := s.opNo
  let s := s.setWarp wk ((w.up o.slot).advance c s.insnLen)
  .next ((s.addOp o).transOp k)

/-- A group performs an act that publishes it (10 R309); a save handler does not. -/
def State.publish (s : State) (w : Warp) : State :=
  if w.handler then s else s.modGroup w.gk fun g => { g with pub := true }

/-- Stores and atomics to device virtual space publish. -/
def Op.publishes (o : Op) : Bool := match o.kind with
  | .acc .store => true
  | .acc (.atom ..) => true
  | _ => false

/-- The checks of a device-virtual access at issue: alignment, then R60 and R66 on every element, precisely (15 R378). It
waits for the tables that its translations walk. -/
def checkVirt (s : State) (wk : Nat) (w : Warp) (o : Op) (align : Nat) (eas : List (Nat × Nat)) (go : State → Res) : Res :=
  if s.acqPending (.warp wk) || slotFull w o.slot then waitRetry s
  else
    match eas.filter fun e => e.2 % align != 0 with
    | e :: r => trapRes s cMisaligned (lanesMask ((e :: r).map (·.1))) e.2
    | [] =>
      match if o.asks then (s, true) else s.walksReady o with
      | (t, false) => .next (t.stallOp o)
      | (_, true) =>
        let bad := if o.asks then [] else (protElems (s.openElems o)).map (·.lane)
        match eas.filter fun e => bad.contains e.1 || decide (2 ^ 57 ≤ e.2) with
        | e :: r => trapRes s cProtection (lanesMask ((e :: r).map (·.1))) e.2
        | [] => go s

/-- Issues a device-virtual access. -/
def issueVirt (s : State) (wk : Nat) (w : Warp) (c : ClausePos) (o : Op) (align : Nat) (eas : List (Nat × Nat)) : Res :=
  checkVirt s wk w o align eas fun s => issueOp (if o.publishes then s.publish w else s) wk w c o

/-! ### Results and completion -/

/-- A loaded element as its register holds it (05 R126; 07 R190). -/
def loadedVal (ty x : Nat) : Nat := if ty < 8 then extendInt ty x else x

/-- The value that an element delivers to its register. -/
def Op.regVal (o : Op) (e : Elem) : Nat :=
  let x := (e.got.getD 0).toNat
  match o.kind with
  | .acc (.load _ ty _) => loadedVal ty x
  | _ => x

/-- A warp takes the results of an operation, all in one step (07 R191). -/
def Warp.takeResults (w : Warp) (o : Op) (vec : Bool) : Warp :=
  o.elems.foldl (fun w e =>
    if vec then w.vput (e.n == 8) e.reg e.lane (o.regVal e)
    else { w with s := sput w.s (e.n == 8) e.reg (o.regVal e) }) w

/-- A mending core takes the results of an operation. -/
def Mend.takeResults (m : Mend) (o : Op) : Mend :=
  o.elems.foldl (fun m e => { m with s := sput m.s (e.n == 8) e.reg (o.regVal e) }) m

/-- Order and scope of an atomic: acquire part, scope. -/
def Op.acqScope (o : Op) : Option Nat := match o.kind with
  | .acc (.atom _ _ _ _ ord scope) => if ord == 1 || ord == 3 then some scope else none
  | _ => none

/-- Whether a group is paired (02 R35). -/
def State.paired (s : State) (gk : Nat) : Bool := match kget s.grids (gkGrid gk) with
  | some g => g.desc.pair
  | none => false

/-- A group that lost a host-homed store traps when a warp of it completes a system-scope fence (17 R424). -/
def State.hostMarked (s : State) (gk : Nat) : Bool := match kget s.groups gk with
  | some g => g.hostMark
  | none => false

/-- An operation ends: its registers are written, its slot falls, its acquire part acts (07 R191, R197, R202). -/
def State.finishOp (s : State) (k : Nat) (o : Op) : State :=
  let s := { s with ops := kdel s.ops k }
  let vec := match o.kind with
    | .acc a => a.dest
    | _ => none
  match o.who with
  | .warp wk =>
    let s := s.modWarp wk fun w => ((match vec with
      | some v => w.takeResults o v
      | none => w)).down o.slot
    let s := match o.acqScope with
      | some sc => s.acquire (wkCore wk) sc (s.paired o.gk)
      | none => s
    let s := if o.acqScope == some 5 && s.hostMarked o.gk then
        s.takeTrap wk (TrapInfo.plain cHostDown o.lanes o.insn)
      else s
    s.pump o.who
  | .mend m =>
    (s.modMend m fun c => match vec with
      | some _ => c.takeResults o
      | none => c).pump o.who
  | _ => s.pump o.who

/-- Whether earlier loads or atomics of the issuer of an acquiring atomic are still out (07 R202, R205). -/
def State.acqEarly (s : State) (k : Nat) (o : Op) : Bool :=
  o.acqScope.isSome && s.ops.any fun x => decide (x.1 < k) && x.2.who == o.who && (match x.2.kind with
    | .acc (.load ..) => true
    | .acc (.tile false _) => true
    | .acc (.atom ..) => true
    | _ => false)

/-- Whether every element is done. -/
def Op.allDone (o : Op) : Bool := o.elems.all (·.done)

/-- Whether an operation writes registers when it lands. -/
def Op.lands (o : Op) : Bool := match o.kind with
  | .acc a => a.dest.isSome
  | _ => false

/-- A queue's WRITE, COUNT or COPY has all its bytes at home (10 R293). -/
def State.packetDone (s : State) (k : Nat) : State :=
  { s with sched := { s.sched with packets := s.sched.packets.map fun p => if (p.op == some k) = true then { p with op := none } else p } }

/-- COUNT of a landing window rises for each applied write that held the marker, once every earlier write of its
requester into the window is applied (03 R93). -/
def State.landCount (s : State) : List LandWr → List LandWr → State × List LandWr
  | [], kept => (s, kept)
  | x :: r, kept =>
    let busy := khas s.ops x.op || kept.any fun y => y.win == x.win && y.req == x.req
    if busy then s.landCount r (kept ++ [x])
    else
      let s := if x.mark && !(s.win x.win).fault then
          s.modWin x.win fun w => { w with count := BitVec.ofNat 32 (satAdd 0xFFFFFFFF w.count.toNat) }
        else s
      s.landCount r kept

/-- Landing writes that are applied leave the list. -/
def State.landDrain (s : State) : State :=
  let (s, l) := s.landCount s.land.wrs []
  { s with land := { s.land with wrs := l } }

/-- The bytes that an operation's elements have read, in their order. -/
def Op.bytesGot (o : Op) : List Byte := o.elems.flatMap fun e => leBytes e.n (e.got.getD 0).toNat

/-- The same as a number. -/
def Op.bytesNum (o : Op) : Nat := leNat o.bytesGot

/-- A line of code has come from its home (04 R101); a warp keeps the latest 256. -/
def State.lineFetched (s : State) (k : Nat) (o : Op) : State :=
  let s := { s with ops := kdel s.ops k }
  match o.who, o.elems.head? with
  | .warp wk, some e => match e.place with
    | some p => s.modWarp wk fun w => { w with lines := (p, o.bytesGot) :: (w.lines.filter fun l => l.1 != p).take 255 }
    | none => s
  | _, _ => s

/-- A host-window access is answered: a read or atomic with its bytes. The host may hold a line that it read or wrote
(08 R257); the choice of the step decides (log 1). -/
def State.hostAnswer (s : State) (k : Nat) (o : Op) : State :=
  let s := { s with ops := kdel s.ops k }
  let s := if o.isStore then s else s.emit (.windowData o.bytesGot)
  let lines := o.elems.filterMap fun e => match e.place with
    | some (.loc a _) => if s.mem.valid a then some (a / 128 * 2) else none
    | _ => none
  if s.choice % 2 == 0 then s
  else { s with mem := { s.mem with hostLines := lines.foldl (fun l x => if l.contains x || l.contains (x + 1) then l else x :: l) s.mem.hostLines } }

/-- An operation whose elements are all at home and that writes no register is complete. -/
def State.settleOp (s : State) (k : Nat) : State :=
  match kget s.ops k with
  | none => s
  | some o =>
    if !o.fails.isEmpty then (if o.awaited then s else s.failAll k o 0)
    else if o.isAcc && o.allDone && !o.lands && o.hold.isEmpty && o.want.isEmpty && !s.acqEarly k o then
      match o.who, o.kind with
      | .host _, _ => s.hostAnswer k o
      | _, kind => match kind with
      | .acc (.pginv ..) => s
      | .acc .recRd => s
      | .acc .leaseWr => s
      | .acc (.fetch _) => s.lineFetched k o
      | .acc (.walkRd a) => { s with ops := kdel s.ops k, mem := { s.mem with farEnts := kset s.mem.farEnts a o.bytesNum } }
      | .acc (.foldStep f) => { s with ops := kdel s.ops k }.foldStepDone o.ctx f o.bytesNum
      | .acc (.tile ..) => if o.who == .orphan then { s with ops := kdel s.ops k } else s
      | _ =>
        let s := s.finishOp k o
        match o.who with
        | .queue _ => s.packetDone k
        | .landing _ => s.landDrain
        | _ => s
    else s.pump o.who

/-! ### Service of an element -/

/-- Whether an operation is a write of the landing port, which a lost sector discards (17 R426). -/
def Op.landingWr (o : Op) : Bool := match o.who with
  | .landing _ => true
  | _ => false

/-- The lease of an element's home has ended (03 R75; 16 R400): it is translated again, which posts the event, and a replay
goes on with it; a mending core traps (07 R194), unless its access has begun, and what has no issuer is dropped. -/
def State.retract (s : State) (k i : Nat) (o : Op) (e : Elem) (reason : Nat) : State :=
  match o.who with
  | .mend _ => if o.begun then s.loseElems k (· == e) else s.failOp k o (reasonCause reason) 0 e.va 0 0
  | .orphan => s.setElem k i { e with done := true }
  | _ => (s.setElem k i { e with place := none }).transOp k

/-- A request that reaches a home under a forward goes on to the page's new home (11 R338); the copies that its core's L1
holds of the bytes at the old home are dropped (08 R247, R250). -/
def State.serveForward (s : State) (k i : Nat) (o : Op) (e : Elem) (a : Nat) (f : Forward) : State :=
  if s.fab.anyUp then
    ((s.setElem k i { e with place := some (.peer f.peer (f.topg * 65536 + a % 65536) false false) }).dropL1 o.l1Core (.loc a .loc)).pumpOp k
  else s.gather k o 0 [failedOf cPlane f.peer [e]]

/-- Whether a lost sector ends an operation that meets it: a store of a save, a landing write, an access of a mending core
(07 R194; 16 R412; 17 R426). Any other is held there (16 R408). -/
def State.endsAtLost (s : State) (o : Op) : Bool := s.handlerStore o || o.landingWr || (match o.who with
  | .mend _ => true
  | _ => false)

/-- An element at its home in local memory is served: forwarded, stopped by an ended lease or a lost sector, or performed. -/
def State.serveLocal (s : State) (k i : Nat) (o : Op) (e : Elem) (a : Nat) : State :=
  match s.mem.forward a with
  | some f => s.serveForward k i o e a f
  | none =>
    match leaseReason (s.mem.leaseAt a) with
    | some r => s.retract k i o e r
    | none =>
      if (s.mem.sec (a / 4096)).lost && s.endsAtLost o then s.failOp k o cUncorrectable 0 e.va 0 0
      else s.serveRequest k i

/-- A TST's element in the front region of an open lining is applied to the side that is the back side at its own instant
(08 R259): its place is found again. -/
def State.relined (s : State) (k i : Nat) (o : Op) (e : Elem) : State × Bool :=
  if !o.lineWr || !s.inFront o.ctx e.va then (s, true)
  else match s.walkGate o.ctx [s.lined o.ctx e.va true] with
  | (s, false) => (s, false)
  | (s, true) => match s.check o.ctx o.kindCode true e.va with
    | .ok p _ _ => if e.place == some p then (s, true) else ((s.setElem k i { e with place := some p }).pumpOp k, false)
    | _ => ((s.setElem k i { e with place := none }).transOp k, false)

/-- Whether an operation may translate: one of a TLD or TST once its entry has started in a pipe (09 R276). -/
def State.started (s : State) (k : Nat) (o : Op) : Bool := match o.kind with
  | .acc (.tile ..) => (kget s.groups o.gk).any fun g => g.mq.any fun e => e.op == some k && e.pipe.isSome
  | _ => true

/-- An element that no peer or host serves is served at its home. One without a place waits for a table of its walk. -/
def State.serve (s : State) (k i : Nat) : State :=
  match kget s.ops k with
  | none => s
  | some o =>
    match o.elems[i]? with
    | none => s
    | some e =>
      if e.done || e.sent || !o.hold.isEmpty || !o.want.isEmpty || !o.fails.isEmpty then s
      else match e.place.map s.homePlace with
      | none => if o.isAcc && s.started k o then s.transOp k else s
      | some p =>
        if o.asks then s.serveAsk k i o e
        else match s.relined k i o e with
        | (s, false) => s
        | (s, true) => match p with
          | .loc a _ => s.serveLocal k i o e a
          | .carve a => if s.mem.lostCarve.contains (a / 4096) && s.endsAtLost o then s.failOp k o cUncorrectable 0 e.va 0 0 else s.serveRequest k i
          | _ => s.serveRequest k i

/-! ### Answers to demand events (03 R77; 07 R235) -/

/-- A list of tags without one. -/
def Hold.drop (h : Hold) (t : Nat) : Hold := { h with tags := dropNat h.tags t }

/-- The entry of a demand queue is freed. -/
def State.freeTag (s : State) (t : Nat) : State := s.modMend (t / 1024) fun m => { m with dem := kdel m.dem (t % 1024) }

/-- Removes a tag from every request that it holds; the operations are those that must translate again. -/
def State.unhold (s : State) (t : Nat) : State × List Nat :=
  let ks := (s.ops.filter fun o => o.2.hold.contains t).map (·.1)
  let ops := kmap (fun _ (o : Op) => { o with hold := dropNat o.hold t }) s.ops
  let warps := kmap (fun _ (w : Warp) => { w with hold := w.hold.map fun h => h.drop t }) s.warps
  ({ s with ops := ops, warps := warps }, ks)

/-- Operations that no event holds any more translate again, in order (03 R77 step 5). -/
def State.retryOps (s : State) (ks : List Nat) : State :=
  ks.foldl (fun s k => match kget s.ops k with
    | some o =>
      if !o.fails.isEmpty then s.settleOp k
      else if o.hold.isEmpty && o.want.isEmpty && o.isAcc then s.replayOp k else s
    | none => s) s

end Sys2Proof.Machine
end

