-- ==== Sys2Proof/Machine/Issue.lean ====
section
/-! DEFINITION. Instruction fetch and clauses (04 R94 to R101, R107, R435, R436; 02 R28 to R30): the frontier, the
checks of a header, the next instruction of an agent, and the check of a branch destination. -/

namespace Sys2Proof.Machine

open Host

/-! ### Code -/

/-- Virtual address of the code base of a warp (04 R94): its grid's, or SVCODE of its partition (10 R317). -/
def State.codeBase (s : State) (w : Warp) : Nat :=
  let g := gkGrid w.gk
  if 2 ^ 32 ≤ g then (s.part (g - 2 ^ 32)).svcode.toNat * 128
  else match kget s.grids g with
    | some g => g.desc.code
    | none => 0

/-- What reading code gives: words, a failed check, a wanted demand event, or a state in which the fetch waits. -/
inductive Code where
  | ok (words : Nat → Nat)
  | prot
  | event (w : Wish)
  | wait (s : State)

/-- The 32 words of the fetch line of a code offset at a home of this device, by index, as numbers. -/
def State.lineOf (s : State) (p : Place) (i : Nat) : Nat :=
  match p with
  | .loc a _ => s.mem.num false (a / 128 * 128 + 4 * i) 4
  | .carve a => s.mem.num true (a / 128 * 128 + 4 * i) 4
  | _ => 0

/-- The same of a line that came from another home. -/
def wordOfLine (bs : List Byte) (i : Nat) : Nat := leNat ((bs.drop (4 * i)).take 4)

/-- The first byte of the 128-byte line of a remote place. -/
def Place.lineBase : Place → Place
  | .peer n a c k => .peer n (a / 128 * 128) c k
  | .host a k => .host (a / 128 * 128) k
  | p => p

/-- The active lanes of the instruction for which a warp fetches the code at an offset (15 R378). -/
def Warp.fetchLanes (w : Warp) (off : Nat) : Lanes :=
  let met := lanesMask (w.lanesAt w.runLanes off)
  match w.clause, w.park with
  | some c, _ => if c.next == off then c.act else met
  | none, .wany _ act _ _ _ => act &&& w.live
  | none, _ => met

/-- The fetch of a line from another home by the issuing warp, as a request of its own (04 R101; 11 R326, R331). -/
def State.askLine (s : State) (w : Warp) (off : Nat) : State :=
  match s.ctl.cur with
  | some (.warp wk) =>
    let va := s.codeBase w + off
    if s.ops.any fun e => e.2.who == .warp wk && (match e.2.kind with
        | .acc (.fetch v) => v / 128 == va / 128
        | _ => false) then s
    else
      let es := (List.range 16).map fun i => Elem.virt 0 (va / 128 * 128 + 8 * i) 8 0 0 0
      let o : Op := { who := .warp wk, ctx := w.ctx, gk := w.gk, insn := s.ctl.insn, kind := .acc (.fetch va), lanes := w.fetchLanes off,
                      slot := none, elems := es, hold := [], want := [], epoch := 0 }
      (s.newOp o).transOp s.opNo
  | _ => s

/-- The line at a place: read at a home of this device once it is ready, else what has come of it. -/
def State.codeAt (s : State) (w : Warp) (off : Nat) (p : Place) : Code :=
  let far := fun (q : Place) => match w.lines.find? fun l => l.1 == q.lineBase with
    | some l => .ok (wordOfLine l.2)
    | none => .wait (s.askLine w off)
  match s.homePlace p with
  | .loc a k =>
    match s.mem.forward a with
    | some f => far (.peer f.peer (f.topg * 65536 + a % 65536) false false)
    | none => match s.gate s.opNo (.loc a k) with
      | (_, true) => .ok (s.lineOf (.loc a k))
      | (t, false) => .wait (t.stall (a / 4096) (s.codeBase w + off) 3)
  | .carve a => match s.gate s.opNo (.carve a) with
    | (_, true) => .ok (s.lineOf (.carve a))
    | (t, false) => .wait t
  | q => far q

/-- Fetch of the line that holds a code offset (03 R60, R66, R67, R72; 04 R436; 08 R257), from the page's home wherever
that is (03 R69). -/
def State.fetchLine (s : State) (w : Warp) (off : Nat) : Code :=
  let va := s.codeBase w + off
  match s.walkGate w.ctx [s.lined w.ctx va false] with
  | (t, false) => .wait (t.stallWalk w.ctx [s.lined w.ctx va false])
  | (_, true) => match s.check w.ctx 3 false va with
    | .ok p _ _ => s.codeAt w off p
    | .prot => .prot
    | .event x => .event x

/-- A line of a mending core's code. -/
def Mend.line (m : Mend) (off i : Nat) : Nat := mnum m.code (off / 128 * 128 + 4 * i) 4

/-- Word index of a code offset within its line. -/
def wordIx (off : Nat) : Nat := off % 128 / 4

/-! ### Headers (04 Table 4-1) -/

def hdrCount (h : Nat) : Nat := bitsOf h 0 4
def hdrClass (h : Nat) : Nat := bitsOf h 4 3
def hdrTgt (h : Nat) : Bool := bitAt h 7
def hdrWait (h : Nat) : Nat := bitsOf h 8 8
def hdrSw (h : Nat) : Bool := bitAt h 16
def hdrPred (h : Nat) : Nat := bitsOf h 17 3
def hdrNeg (h : Nat) : Bool := bitAt h 20

/-- Whether the instructions of a clause fill it: words left, word index, at most fuel instructions (04 R97, R435). -/
def fits (line : Nat → Nat) : Nat → Nat → Nat → Bool
  | 0, _, _ => false
  | _ + 1, _, 0 => true
  | fuel + 1, i, left =>
    let n := instrLen (line i)
    if left < n then false else fits line fuel (i + n) (left - n)

/-- The checks of R97 on a header at word i of its line. -/
def headerOk (line : Nat → Nat) (i : Nat) : Bool :=
  let h := line i
  bitsOf h 24 8 == 0xA5 && hdrCount h != 0 && bitsOf h 21 3 == 0 && decide (i + hdrCount h ≤ 31) &&
    fits line 16 (i + 1) (hdrCount h)

/-- The header position after a clause (04 R95): filler in the same line leads to the next line. -/
def nextHeader (line : Nat → Nat) (off count : Nat) : Nat :=
  let e := off + 4 + 4 * count
  if e % 128 != 0 && line (wordIx e) == 0 then (e / 128 + 1) * 128 else e

/-- Instructions that must end their clause (04 R97). -/
def mustEnd : Instr → Bool
  | .bra _ => true
  | .brc _ _ _ => true
  | .brv _ _ _ _ => true
  | .call _ _ => true
  | .ret _ _ => true
  | .jmpi _ _ => true
  | .wany _ => true
  | .rcw _ _ => true
  | .sjmp _ _ _ _ => true
  | .regrp _ _ _ => true
  | _ => false

/-! ### The frontier (02 R28) -/

/-- The lowest pc of a list of lanes. -/
def Warp.lowPc (w : Warp) : List Nat → Option Nat
  | [] => none
  | l :: r => match w.lowPc r with
    | none => some (w.pcOf l)
    | some p => some (min (w.pcOf l) p)

/-- The frontier. -/
def Warp.frontier (w : Warp) : Option Nat := w.lowPc (lanesOf w.runLanes)

/-- Whether every slot is clear. -/
def Warp.slotsClear (w : Warp) : Bool := w.sb.isEmpty

/-- Whether a wait mask names a slot that is not clear. -/
def Warp.waitsOn (w : Warp) (mask : Nat) : Bool := (List.range 8).any fun k => bitAt mask k && w.slot k != 0

/-- Whether warps of a group may issue: its phase lets them. A warp of a saving group issues its handler. -/
def State.groupIssues (s : State) (w : Warp) : Bool :=
  match kget s.groups w.gk with
  | none => false
  | some g => match g.phase with
    | .run => true
    | .saving _ => w.handler || decide (2 ^ 32 ≤ gkGrid w.gk)
    | _ => decide (2 ^ 32 ≤ gkGrid w.gk)

/-- A warp that may be given a window: not parked, not held at issue, with a lane to run (02 R27, R56). In stage RESUME, in which
partitions are restored one after another and the host port has not trained, none is (12 R355, R359; log 104). -/
def State.issuable (s : State) (w : Warp) : Bool :=
  s.mgmt.stage != 8 && w.park == .none && w.hold == none && s.groupIssues w && w.runLanes != 0

/-! ### Fetch -/

/-- What a step finds for an agent: an instruction to execute, or a step without one. -/
inductive Fetched where
  | exec (i : Instr) (s : State)
  | done (s : State)

/-- The state in which an agent is the one issuing. -/
def State.begin (s : State) (a : Agent) (insn : Insn) : State :=
  { s with ctl := { s.ctl with cur := some a, insn := insn } }

/-- A warp waits at issue for demand events (04 R436). -/
def State.holdWarp (s : State) (wk : Nat) (w : Warp) (insn : Insn) (va : Nat) (x : Wish) : State :=
  let (s, tags, ws) := s.postAll w.ctx (s.srcOf (.warp wk) w.ctx none) [x]
  s.modWarp wk fun w => { w with hold := some { tags := tags, want := ws, insn := insn, va := va } }

/-- Instructions that a save handler may use (10 R312). -/
def inHandler : Instr → Bool
  | .ld .. => true
  | .st .. => true
  | .lds .. => true
  | .wadr .. => true
  | .fence .. => true
  | .sread .. => true
  | .csrr .. => true
  | .nop => true
  | .bra .. => true
  | .brc .. => true
  | .brv .. => true
  | .exit .. => true
  | _ => false

/-- Whether the issuing warp runs a save handler that may not use an instruction of a class (10 R312). -/
def State.handlerStops (s : State) (cls : Nat) (i : Instr) : Bool :=
  match s.ctl.cur with
  | some (.warp wk) => match kget s.warps wk with
    | some w => w.handler && !(cls == 1 || cls == 2 || inHandler i)
    | none => false
  | _ => false

/-- The instruction at the position of an open clause. -/
def fetchInsn (s : State) (a : Agent) (mendCls : Bool) (line : Nat → Nat) (c : ClausePos) : Fetched :=
  let w := line (wordIx c.next)
  let x := if instrLen w == 2 then line (wordIx c.next + 1) else 0
  let s := s.begin a { pc := c.next, word := w, ext := x, hdr := c.hdr }
  if bitsOf w 29 3 != c.cls || (mendCls && !(c.cls == 1 || c.cls == 4 || c.cls == 7)) ||
      decide (c.stop < c.next + 4 * instrLen w) then .done (s.trapCur cEncoding c.act)
  else match decodeInstr w x with
    | none => .done (s.trapCur cEncoding c.act)
    | some i =>
      if mustEnd i && c.next + 4 * instrLen w != c.stop then .done (s.trapCur cEncoding c.act)
      else if s.handlerStops c.cls i then .done (s.trapCur cEncoding c.act)
      else .exec i s

/-- The clause that a header opens. -/
def openClause (line : Nat → Nat) (off : Nat) (here act : Lanes) : ClausePos :=
  let h := line (wordIx off)
  { hdr := off, next := off + 4, stop := off + 4 + 4 * hdrCount h, nexth := nextHeader line off (hdrCount h),
    cls := hdrClass h, act := act, sw := hdrSw h, here := here }

/-- The clause of a restored warp, whose header is at its frontier: the frame keeps only the next word and the active
set (10 R314), and a stop of 0 marks it. -/
def Warp.reopened (w : Warp) (line : Nat → Nat) (c : ClausePos) : ClausePos :=
  if c.stop == 0 then
    let f := w.frontier.getD c.hdr
    { openClause line f (lanesMask (w.lanesAt w.runLanes f)) c.act with next := c.next }
  else c

/-- Lanes pass filler to the next line; lanes that have met at it meet there (02 R30; 04 R95). -/
def Warp.pastFiller (w : Warp) (f : Nat) (ls : List Nat) : Warp :=
  let t := (f / 128 + 1) * 128
  let w' := { w with merged := dropNat w.merged f }.fallTo ls t
  if w.merged.contains f then { w' with merged := t :: w'.merged } else w'

/-- A clause is met at the frontier F (02 R28 to R30; 04 R95 to R100). -/
def State.fetchClause (s : State) (wk : Nat) (w : Warp) (line : Nat → Nat) (f : Nat) : Fetched :=
  let h := line (wordIx f)
  let here := lanesMask (w.lanesAt w.runLanes f)
  let s := s.begin (.warp wk) { pc := f, word := h, ext := 0 }
  if h == 0 then .done (s.setWarp wk (w.pastFiller f (lanesOf here)))
  else if !headerOk line (wordIx f) then .done (s.trapCur cEncoding here)
  else if w.merged.contains f && !hdrTgt h then .done (s.trapCur cConvergence here)
  else
    let act := here &&& w.predN (hdrPred h) (hdrNeg h)
    let c := openClause line f here act
    let w := { w with merged := dropNat w.merged f }
    if act == 0 then .done (s.setWarp wk (w.endClause c))
    else if w.waitsOn (hdrWait h) then .done s
    else fetchInsn (s.setWarp wk { w with clause := some c }) (.warp wk) false line c

/-- The next instruction of a warp. -/
def State.fetchWarp (s : State) (wk : Nat) (w : Warp) : Fetched :=
  if !s.issuable w then .done s
  else
    let at_ := match w.inClause with
      | some c => some c.next
      | none => if w.swWait && !w.slotsClear then none else w.frontier
    match at_ with
    | none => .done s
    | some off =>
      let insn : Insn := { pc := off, word := 0, ext := 0 }
      let s := s.begin (.warp wk) insn
      match s.fetchLine w off with
      | .wait t => .done t
      | .prot => .done (s.trapCur cProtection (w.fetchLanes off) (s.codeBase w + off))
      | .event x => .done (s.holdWarp wk w insn (s.codeBase w + off) x)
      | .ok line =>
        match w.inClause with
        | some c =>
          let c := w.reopened line c
          fetchInsn (s.setWarp wk { w with clause := some c }) (.warp wk) false line c
        | none => s.fetchClause wk { w with clause := none, swWait := false } line off

/-- The next instruction of a mending core (01 R13): it has no predicates, so a clause predicate other than p7 traps
with ILLEGAL_OPERAND (log 28). -/
def State.fetchMend (s : State) (m : Nat) (x : Mend) : Fetched :=
  if x.halted then .done s
  else match x.clause with
    | some c => fetchInsn s (.mend m) true (x.line c.next) c
    | none =>
      let line := x.line x.pc
      let h := line (wordIx x.pc)
      let s := s.begin (.mend m) { pc := x.pc, word := h, ext := 0, hdr := x.pc }
      if h == 0 then .done (s.setMend m { x with pc := (x.pc / 128 + 1) * 128 })
      else if !headerOk line (wordIx x.pc) then .done (s.trapCur cEncoding)
      else if hdrPred h != 7 then .done (s.trapCur cOperand)
      else
        let c := openClause line x.pc 1 1
        let c := { c with next := x.resume.getD c.next }
        let x := { x with resume := none }
        if hdrNeg h then .done (s.setMend m { x with pc := c.nexth })
        else fetchInsn (s.setMend m { x with clause := some c }) (.mend m) true line c

/-- Whether a PGINV of a mending core has not completed: its next instruction waits (07 R242). -/
def State.mendWaits (s : State) (m : Nat) : Bool :=
  s.ops.any fun o => o.2.who == .mend m && (match o.2.kind with
    | .acc (.pginv ..) => true
    | _ => false)

/-- The next instruction of an agent. -/
def State.fetch (s : State) (a : Agent) : Fetched :=
  match a with
  | .warp wk => match kget s.warps wk with
    | some w => s.fetchWarp wk w
    | none => .done s
  | .mend m => match kget s.mends m with
    | some x => if s.mendWaits m then .done s else s.fetchMend m x
    | none => .done s

/-! ### Branch destinations (04 R107, R436; 06 R150, R151) -/

/-- What the check of destinations gives. -/
inductive Target where
  | ok
  | bad
  | prot (va : Nat)
  | event (va : Nat) (w : Wish)
  | wait (s : State)
  deriving DecidableEq, Repr

/-- The check of one destination of a warp: fetch, then TGT and R97. -/
def State.checkTarget (s : State) (w : Warp) (t : Nat) : Target :=
  if t % 4 != 0 then .bad
  else match s.fetchLine w t with
    | .prot => .prot (s.codeBase w + t)
    | .event x => .event (s.codeBase w + t) x
    | .wait u => .wait u
    | .ok line => if hdrTgt (line (wordIx t)) && headerOk line (wordIx t) then .ok else .bad

/-- The first destination of a list that is not in order. Lanes of a RET or JMPI may fail in different ways, and the manual
gives no order among them: the lowest destination comes first (log 86). -/
def State.checkTargets (s : State) (w : Warp) : List Nat → Target
  | [] => .ok
  | t :: r => match s.checkTarget w t with
    | .ok => s.checkTargets w r
    | x => x

/-- Goes on when every destination passes; else the branch traps or waits, with no result written (04 R436). -/
def withTargets (s : State) (wk : Nat) (w : Warp) (c : ClausePos) (ts : List Nat) (k : Res) : Res :=
  match s.checkTargets w ts with
  | .ok => k
  | .bad => trapRes s cTarget c.act
  | .prot va => trapRes s cProtection c.act va
  | .event va x => .next (s.holdWarp wk w s.ctl.insn va x)
  | .wait t => .next t

/-- The header position at or after an offset (04 R95): filler at the start of a line leads to the next line. A line whose
fetch fails ends the search there; one that is not at hand makes the issuer wait. -/
def State.linkFrom (s : State) (w : Warp) : Nat → Nat → State ⊕ Nat
  | 0, off => .inr off
  | fuel + 1, off =>
    if off % 128 != 0 then .inr off
    else match s.fetchLine w off with
      | .ok line => if line 0 == 0 then s.linkFrom w fuel (off + 128) else .inr off
      | .wait t => .inl t
      | _ => .inr off

/-- Lines that the offsets of code can name. -/
def codeLines : Nat := 2 ^ 25

/-- Goes on with the next header position after a clause, for a link (06 R150, R165). -/
def withLink (s : State) (w : Warp) (c : ClausePos) (k : Nat → Res) : Res :=
  match s.linkFrom w codeLines c.nexth with
  | .inl t => .next t
  | .inr l => k l

/-- The same on a mending core: the first line at or after an offset at the start of a line that does not begin with filler. -/
def Mend.linkFrom (x : Mend) (off : Nat) : Nat :=
  if off % 128 != 0 then off
  else match x.code.find? fun e => decide (off ≤ e.1) && decide (e.1 % 128 < 4) with
    | some e => e.1 / 128 * 128
    | none => off

/-- The check of a destination of a mending core. -/
def Mend.targetOk (x : Mend) (t : Nat) : Bool :=
  t % 4 == 0 && hdrTgt (x.line t (wordIx t)) && headerOk (x.line t) (wordIx t)

/-- A branch ends its clause: the active lanes that take it go to their destinations, the others and the lanes the
clause predicate excluded go to the next header position (06 R150; 02 R28, R30). -/
def Warp.branch (w : Warp) (c : ClausePos) (go : Lanes) (dest : Nat → Nat) : Warp :=
  let gl := lanesOf (go &&& c.act)
  let stay := (lanesOf (c.here &&& w.live)).filter fun l => !gl.contains l
  let w := { w with pcs := gl.foldl (fun r l => rset r l (BitVec.ofNat 32 (dest l))) w.pcs }
  let w := if stay.isEmpty then w else w.fallTo stay c.nexth
  { w with clause := none, swWait := c.sw }

end Sys2Proof.Machine
end

