-- ==== Sys2Proof/Machine/Groups.lean ====
section
/-! DEFINITION. Warps and groups as they wait and end (02 R37, R45 to R56; 06 R152; 07 R209; 10 R303, R308): barriers,
bounded reconvergence, wait-any, retirement of warps, groups and seam members, scheduler messages (11 R336). -/

namespace Sys2Proof.Machine

open Host

/-! ### Scheduler messages (11 R336) -/

/-- The event by which a device meets a message code of Table 11-10. -/
def seamEvent (code : Nat) (src : Sender) (id extra : Word) : Option Instr :=
  match code with
  | 1 => some (.reserve src id)
  | 2 => some (.reserved src id)
  | 3 => some (.busy src id)
  | 4 => some (.commit src id)
  | 5 => some (.ready src id)
  | 6 => some (.go src id)
  | 7 => some (.release src id)
  | 8 => some (.revoke src id)
  | 9 => some (.stopreq src id)
  | 10 => some (.stop src id)
  | 11 => some (.stopped src id extra)
  | 12 => some (.save src id)
  | 13 => some (.detached src id extra.toNat)
  | 14 => some (.exitdone src id)
  | _ => none

/-- Payload of a message from byte 16 (11 Table 11-10). -/
def seamPayload (code : Nat) (id extra : Word) : List Byte :=
  leBytes 4 code ++ leBytes 4 id.toNat ++ leBytes 4 (if code == 13 then extra.toNat else 0) ++
    leBytes 4 (if code == 11 then extra.toNat else 0)

/-- A message to a device; one to this device is the event itself. -/
def State.seamMsg (s : State) (peer code id : Nat) (extra : Nat) : State :=
  if peer == s.mgmt.peernum.toNat then
    match seamEvent code { dev := peer } (BitVec.ofNat 32 id) (BitVec.ofNat 32 extra) with
    | some e => s.selfSend e
    | none => s
  else
    let fl := { s.flitTo 0x20 peer 0 with data := seamPayload code (BitVec.ofNat 32 id) (BitVec.ofNat 32 extra) }
    s.kSend { slice := id % 16, flit := fl, op := none, elems := [], back := none }

/-- A list without repeats, ascending. -/
def sortNat (l : List Nat) : List Nat := (l.foldl (fun (m : KV Unit) x => kset m x ()) []).map (·.1)

/-- Member devices of a seam in ascending peer number (10 R305). -/
def Seam.devices (m : Seam) : List Nat := sortNat m.peers

/-- The leader is the device of member 0 (10 R304). -/
def Seam.leader (m : Seam) : Nat := m.peers.headD 0

/-- A message to every member device. -/
def State.seamAll (s : State) (m : Seam) (code id : Nat) : State :=
  m.devices.foldl (fun s p => s.seamMsg p code id 0) s

/-! ### Barriers (02 R37) -/

/-- A barrier of a group; one that the map does not list has count 0 and no arrival. -/
def Group.bar (g : Group) (b : Nat) : Bar := kgetD g.bars b { gen := 0, arr := 0 }

/-- Warp indices still expected: those resident. -/
def Group.expected (g : Group) : BitVec 256 :=
  g.wks.foldl (fun m e => m ||| BitVec.ofNat 256 (2 ^ e.1)) 0

/-- A warp of a group learns of a completed barrier: its latched bit, and the end of its BARG. -/
def Warp.barDone (w : Warp) (b : Nat) : Warp :=
  let w := w.setPend b
  if w.park == .barg b then { w with park := .none } else w

/-- The barrier completes when every expected warp has arrived (02 R37). -/
def State.tryBarrier (s : State) (gk b : Nat) : State :=
  match kget s.groups gk with
  | none => s
  | some g =>
    let x := g.bar b
    let e := g.expected
    if x.arr != 0 && e != 0 && (e &&& x.arr) == e then
      let s := s.modGroup gk fun g => { g with bars := kset g.bars b { gen := x.gen + 1, arr := 0 } }
      g.wks.foldl (fun s e => s.modWarp e.2 fun w => w.barDone b) s
    else s

/-- Every barrier of a group. -/
def State.tryBarriers (s : State) (gk : Nat) : State := (List.range 16).foldl (fun s b => s.tryBarrier gk b) s

/-! ### Bounded reconvergence (02 R32) -/

/-- The open RCW ends: its lanes stand at the clause after it, and q says how. -/
def Warp.rcwEnd (w : Warp) (r : OpenRcw) (arrived : Bool) : Warp :=
  let ls := lanesOf (r.lanes &&& w.live)
  let w := { w with rcw := none, q := setq w.q r.q arrived }
  match ls with
  | [] => w
  | l :: _ => w.fallTo ls (w.pcOf l)

/-- Cycles of the open RCW. -/
def OpenRcw.elapsed (r : OpenRcw) (now : Nat) : Nat := r.base + (now - r.since)

/-- Whether the bound of the open RCW has expired in an earlier cycle: an arrival in the same one wins (02 R32). -/
def OpenRcw.past (r : OpenRcw) (now : Nat) : Bool := r.bound != 0 && decide (r.bound < r.elapsed now)

/-- The open RCWs of a core's warps whose bound has expired in an earlier cycle end (02 R32). -/
def State.rcwExpire (s : State) (core : Nat) : State :=
  let now := (s.core core).cycles
  (s.warps.filter fun e => wkCore e.1 == core && e.2.rcw.isSome).foldl (fun s e => match e.2.rcw with
    | some r => if r.past now && s.groupIssues e.2 then s.setWarp e.1 (e.2.rcwEnd r false) else s
    | none => s) s

/-- Arrival: every live lane is parked in it. -/
def Warp.rcwCheck (w : Warp) : Warp :=
  match w.rcw with
  | none => w
  | some r => if w.live != 0 && (w.live &&& ~~~r.lanes) == 0 then w.rcwEnd r true else w

/-! ### Wait-any (02 R49 to R54) -/

/-- An event binding's number. -/
def Warp.eb64 (w : Warp) (i : Nat) : Nat := (sget 0 w.eb i : DWord).toNat
def ebKind (x : Nat) : Nat := bitsOf x 61 3
def ebSel (x : Nat) : Nat := bitsOf x 32 24
def ebHandler (x : Nat) : Nat := bitsOf x 0 32

/-- Mailbox messages for a warp at its core. -/
def State.mboxCount (s : State) (wk : Nat) : Nat :=
  ((s.core (wkCore wk)).mbox.filter fun m => m.tgt == wk % 128).length

/-- The value a binding delivers in s1 (02 Table 2-7); elapsed counts the cycles of the WANY. -/
def State.ebValue (s : State) (wk : Nat) (w : Warp) (x elapsed : Nat) : Nat :=
  match ebKind x with
  | 1 => match kget s.groups w.gk with
    | some g => (g.bar (ebSel x % 16)).gen.toNat
    | none => 0
  | 2 => w.sealed.length
  | 3 => s.mboxCount wk
  | 4 => (s.win (bitsOf (ebSel x) 18 6)).count.toNat
  | 5 => elapsed
  | 6 => w.x
  | _ => 0

/-- Whether a binding's condition holds (02 Table 2-7). -/
def State.ebHolds (s : State) (wk : Nat) (w : Warp) (x elapsed : Nat) : Bool :=
  match ebKind x with
  | 1 => w.pend.getLsbD (ebSel x % 16)
  | 2 => decide (w.sealed.length ≤ ebSel x)
  | 3 => w.pend.getLsbD 16
  | 4 => decide (bitsOf (ebSel x) 0 18 ≤ s.ebValue wk w x elapsed)
  | 5 => decide (ebSel x ≤ elapsed)
  | 6 => w.pend.getLsbD 17
  | _ => false

/-- Bindings that a mask selects: named, not suppressed, bound (02 R52). -/
def Warp.selected (w : Warp) (m : Byte) : List Nat :=
  (List.range 8).filter fun i => m.getLsbD i && !w.emask.getLsbD i && ebKind (w.eb64 i) != 0

/-- The lowest selected binding that holds (02 R52). -/
def State.wanySelect (s : State) (wk : Nat) (w : Warp) (m : Byte) (elapsed : Nat) : Option Nat :=
  (w.selected m).find? fun i => s.ebHolds wk w (w.eb64 i) elapsed

/-- The latched bit of a binding, cleared by the resumption that it causes (02 R53). -/
def Warp.consume (w : Warp) (x : Nat) : Warp :=
  match ebKind x with
  | 1 => w.clrPend (ebSel x % 16)
  | 3 => w.clrPend 16
  | 6 => w.clrPend 17
  | _ => w

/-- The resumption by binding i (02 R53): s0, s1 with the value of its winning evaluation, the latched bit, the active lanes
at the handler. -/
def Warp.wanyGo (w : Warp) (i : Nat) (act : Lanes) (v : Nat) : Warp :=
  let x := w.eb64 i
  let r := rset (rset w.s 0 (BitVec.ofNat 32 i)) 1 (BitVec.ofNat 32 v)
  { w.consume x with s := r, park := .none, clause := none, won := none, pcs := setPcs w.pcs (lanesOf (act &&& w.live)) (ebHandler x) }

/-- The check of the handler of a parked WANY that a binding has won, as a destination; while it waits, the winner stays (02 R30,
R53; 04 R436). -/
def State.wanyCheck (s : State) (wk : Nat) : State :=
  match kget s.warps wk with
  | none => s
  | some w => match w.park, w.won with
    | .wany _ act _ _ insn, some (i, v) =>
      let s := s.begin (.warp wk) insn
      match s.checkTarget w (ebHandler (w.eb64 i)) with
      | .ok => s.setWarp wk (w.wanyGo i act v)
      | .bad => s.takeTrap wk (TrapInfo.plain cTarget act insn)
      | .prot va => s.takeTrap wk { TrapInfo.plain cProtection act insn with va := va }
      | .event va x => s.holdWarp wk w insn va x
      | .wait u => u
    | _, _ => s

/-- The elapsed cycles at which a parked WANY is evaluated, of the last few cycles: the first at which a selected timeout holds,
else the present ones (02 R50, R52). -/
def Warp.wanyAt (w : Warp) (m : Byte) (e back : Nat) : Nat :=
  (w.selected m).foldl (fun a i =>
    let n := ebSel (w.eb64 i)
    if ebKind (w.eb64 i) == 5 && decide (e - back < n) && decide (n ≤ a) then n else a) e

/-- A parked WANY is evaluated for the last few cycles; the first evaluation that gives a binding decides (02 R52). -/
def State.wanyEval (s : State) (wk back : Nat) : State :=
  match kget s.warps wk with
  | none => s
  | some w =>
    if w.hold.isSome || !s.groupIssues w then s
    else match w.park, w.won with
      | .wany .., some _ => s.wanyCheck wk
      | .wany m _ base since _, none =>
        let e := w.wanyAt m (base + ((s.core (wkCore wk)).cycles - since)) back
        match s.wanySelect wk w m e with
        | some i => (s.setWarp wk { w with won := some (i, s.ebValue wk w (w.eb64 i) e) }).wanyCheck wk
        | none => s
      | _, _ => s

/-- Whether a warp is parked in WANY. -/
def Warp.inWany (w : Warp) : Bool := match w.park with
  | .wany .. => true
  | _ => false

/-- Every parked WANY of warps that satisfy a condition. -/
def State.wanyAll (s : State) (f : Nat → Bool) (back : Nat) : State :=
  (s.warps.filter fun e => f e.1 && e.2.inWany).foldl (fun s e => s.wanyEval e.1 back) s

/-! ### Seam members (02 R46, R47; 10 R307) -/

/-- Whether every warp of a group has retired. -/
def State.allRetired (s : State) (gk : Nat) (g : Group) : Bool := match kget s.grids (gkGrid gk) with
  | some r => g.wks.isEmpty && (List.range r.desc.warps).all fun i => g.retired.getLsbD i
  | none => false

/-- Every held exit of the members on this device completes once every member is detached, also of a member that is saved
or is being restored (02 R47, R48). -/
def State.heldExits (s : State) (m : Seam) : List Nat :=
  m.locals.filterMap fun e => match kget s.groups e.2 with
    | some g => if s.allRetired e.2 g && g.phase != .gone then some e.2 else none
    | none => none

/-- All bits of the members of a seam. -/
def Seam.allDet (m : Seam) : Bool := (List.range m.members).all fun i => m.dets.getLsbD i

/-- The running average of a grid after a retirement of c core-cycles (10 R308). -/
def avgNext (a : Option Int) (c : Int) : Option Int :=
  match a with
  | none => some c
  | some x => some (x + (c - x) / 8)

/-- A group completes (10 R296, R303): its residency and P are charged, its room is free, its grid counts it. -/
def State.retireGroup (s : State) (gk : Nat) : State :=
  let s := (s.endResidency gk).refundP gk
  match kget s.groups gk with
  | none => s
  | some g =>
    let s := s.modGroup gk fun g => { g with phase := .gone, scr := [], tiles := [], mq := [], bars := [] }
    s.modGrid (gkGrid gk) fun r => { r with fin := r.fin + 1, avg := avgNext r.avg g.w }

/-- A member is detached: the leader records it, another device reports it (10 R307). -/
def State.recordDetach (s : State) (id i : Nat) : State :=
  { s with seams := kmod s.seams id fun m =>
      { m with dets := m.dets ||| BitVec.ofNat 16 (2 ^ i), told := m.told ||| BitVec.ofNat 16 (2 ^ i) } }

/-- Once every member is detached, the leader tells the devices; each completes its held exits (02 R47; 10 R307). -/
def State.seamExits (s : State) (id : Nat) : State :=
  match kget s.seams id with
  | none => s
  | some m =>
    if m.leader == s.mgmt.peernum.toNat && m.allDet && !m.done then
      let s := { s with seams := kmod s.seams id fun m => { m with done := true } }
      s.seamAll m 14 id
    else s

/-- A member whose warps have all detached or retired counts as detached. -/
def State.memberDetach (s : State) (gk : Nat) : State :=
  match s.seamOf gk, kget s.groups gk with
  | some (r, i), some g =>
    if g.expected &&& ~~~g.dets != 0 then s
    else
      let lead := r.peers.headD 0
      let done : Bool := match kget s.seams r.id with
        | some m => m.dets.getLsbD i
        | none => true
      if done then s
      else if lead == s.mgmt.peernum.toNat then (s.recordDetach r.id i).seamExits r.id
      else (s.recordDetach r.id i).seamMsg lead 13 r.id i
  | _, _ => s

/-- The last warp of a group has retired (02 R47; 09 R278; 10 R310; 17 R424): a member's exit is held until its seam's exits
complete, without its tiles. -/
def State.groupEnd (s : State) (gk : Nat) : State :=
  match kget s.groups gk with
  | none => s
  | some g =>
    if g.hostMark then
      (s.recordGroup gk (TrapInfo.sched cHostDown 0 0) 1).killGrid (gkGrid gk) (0x100 + cHostDown)
    else match s.seamOf gk with
      | none => s.retireGroup gk
      | some (r, _) =>
        let done : Bool := match kget s.seams r.id with
          | some m => m.done
          | none => true
        if done then s.retireGroup gk
        else s.modGroup gk fun g => { g with tiles := [], phase := match g.phase with
          | .stopping d => .stopping d
          | _ => .held }

/-! ### Retirement of a warp (06 R152; 07 R209; 09 R278) -/

/-- Asynchronous operations of a warp that belong to a batch. -/
def State.batchOps (s : State) (wk b : Nat) : Bool :=
  s.ops.any fun o => o.2.who == .warp wk && (match o.2.kind with
    | .async _ _ _ _ _ x => x == b
    | _ => false)

/-- Incomplete asynchronous operations of a warp (07 R208). -/
def State.asyncOps (s : State) (wk : Nat) : List (Nat × Op) :=
  s.ops.filter fun o => o.2.who == .warp wk && !o.2.isAcc

/-- Matrix entries of a warp. -/
def State.warpEnts (s : State) (wk gk : Nat) : List MEnt :=
  match kget s.groups gk with
  | none => []
  | some g => g.mq.filter fun e => e.wk == wk

/-- Whether a warp without live lanes can retire: its slots clear, its batches finished, its matrix entries complete. -/
def State.canRetire (s : State) (wk : Nat) (w : Warp) : Bool :=
  w.live == 0 && !w.handler && w.slotsClear && w.sealed.isEmpty && (s.asyncOps wk).isEmpty && (s.warpEnts wk w.gk).isEmpty

/-- Stores that a retired warp left in flight go on without an issuer. -/
def State.orphanOps (s : State) (wk : Nat) : State :=
  { s with ops := kmap (fun _ (o : Op) => if o.who == .warp wk then o.leave else o) s.ops }

/-- A warp parked in REGRP whose partner retires traps (06 R176). -/
def State.regrpOrphan (s : State) (g : Group) (ix : Nat) : State :=
  s.together fun s => g.wks.foldl (fun s e => match kget s.warps e.2 with
    | some w => match w.park with
      | .regrp m _ _ _ insn => if (e.1 ^^^ m) == ix then s.takeTrap e.2 (TrapInfo.plain cConvergence w.live insn) else s
      | _ => s
    | none => s) s

/-- A warp leaves its group: its slot position, its requests and messages, the barriers it is expected on (02 R37). -/
def State.leaveWarp (s : State) (wk : Nat) (w : Warp) : State :=
  let s := { s with warps := kdel s.warps wk }
  let s := (s.orphanOps wk).modCore (wkCore wk) fun c =>
    { c with mbox := dropMsgs c.mbox [wk % 128], xq := c.xq.filter fun r => r.wk != wk }
  let bit := BitVec.ofNat 256 (2 ^ w.ix)
  let s := s.modGroup w.gk fun g =>
    { g with wks := kdel g.wks w.ix, retired := g.retired ||| bit, dets := g.dets ||| bit,
             bars := kmap (fun _ (b : Bar) => { b with arr := b.arr &&& ~~~bit }) g.bars }
  s.tryBarriers w.gk

/-- A warp retires. -/
def State.retireWarp (s : State) (wk : Nat) (w : Warp) : State :=
  let s := s.leaveWarp wk w
  match kget s.groups w.gk with
  | none => s
  | some g =>
    let s := (s.regrpOrphan g w.ix).memberDetach w.gk
    match kget s.groups w.gk with
    | none => s
    | some g => if g.wks.isEmpty && g.phase.resident then s.groupEnd w.gk else s

/-- A warp retires as soon as it can. -/
def State.tryRetire (s : State) (wk : Nat) : State :=
  match kget s.warps wk with
  | none => s
  | some w => if s.canRetire wk w then s.retireWarp wk w else s

/-- Every warp that can retire does. -/
def State.retireAll (s : State) : State :=
  (s.warps.filter fun e => e.2.live == 0).foldl (fun s e => s.tryRetire e.1) s

/-- The open batch of a warp is sealed without a completion word when its last lane exits (07 R209). -/
def Warp.sealOpen (w : Warp) (cw : Option ComplWord) : Warp :=
  { w with sealed := w.sealed ++ [{ seq := w.batch, cw := cw }], batch := w.batch + 1 }

/-- The last lane has exited: an open batch with operations is sealed. -/
def State.lastExit (s : State) (wk : Nat) (w : Warp) : Warp :=
  if w.live == 0 && !w.handler && s.batchOps wk w.batch then w.sealOpen none else w

end Sys2Proof.Machine
end

