-- ==== Sys2Proof/Machine/Control.lean ====
section
/-! DEFINITION. The control class (06 R150 to R159), SJMP (06 R165) and REGRP (02 R43, R44; 06 R176). -/

namespace Sys2Proof.Machine

open Host

/-- The destination of an FB branch: four times the signed offset from the clause header, exactly (00 R7; 04 R107; 06 R150).
No clause header lies outside the 32-bit offsets of code (log 87). -/
def fbTarget (c : ClausePos) (off : Int) : Option Nat :=
  let t : Int := c.hdr + 4 * off
  if 0 ≤ t ∧ t < 2 ^ 32 then some t.toNat else none

/-- Goes on with the destination of an FB branch. -/
def toTarget (s : State) (c : ClausePos) (off : Int) (k : Nat → Res) : Res :=
  match fbTarget c off with
  | some t => k t
  | none => trapRes s cTarget c.act

/-- A branch of the lanes of a mask by an FB offset. -/
def branchTo (s : State) (wk : Nat) (w : Warp) (c : ClausePos) (go : Lanes) (off : Int) : Res :=
  toTarget s c off fun t => withTargets s wk w c [t] (.next (s.setWarp wk (w.branch c go fun _ => t)))

/-- BRA (06 R150). -/
def execBra (off : BitVec 25) (s : State) : Res :=
  warpOp (.bra off) s fun wk w c => branchTo s wk w c c.act off.toInt

/-- BRC (06 R150). -/
def execBrc (p : BitVec 3) (n : Bool) (off : BitVec 21) (s : State) : Res :=
  warpOp (.brc p n off) s fun wk w c => branchTo s wk w c (w.predN p.toNat n) off.toInt

/-- BRV (06 R150). -/
def execBrv (p : BitVec 3) (n all : Bool) (off : BitVec 20) (s : State) : Res :=
  warpOp (.brv p n all off) s fun wk w c =>
    let t := w.predN p.toNat n &&& c.act
    let go := if all then t == c.act else t != 0
    branchTo s wk w c (if go then c.act else 0) off.toInt

/-- CALL (06 R150; 04 R94). Of a destination that is off a 128-byte boundary and whose fetch fails, the manual gives no
order: the boundary comes first (log 88). -/
def execCall (link : VReg) (off : BitVec 18) (s : State) : Res :=
  warpOp (.call link off) s fun wk w c => toTarget s c off.toInt fun t =>
    if t % 128 != 0 then trapRes s cTarget c.act
    else withTargets s wk w c [t] (withLink s w c fun l =>
      .next (s.setWarp wk ((w.putLanes false link.toNat (lanesOf c.act) fun _ => l).branch c c.act fun _ => t)))

/-- Each active lane to the target in its own v(A) (06 R151). -/
def indirect (s : State) (wk : Nat) (w : Warp) (c : ClausePos) (a : VReg) : Res :=
  let dest := fun l => (w.vget a.toNat l).toNat
  withTargets s wk w c (sortNat ((lanesOf c.act).map dest)) (.next (s.setWarp wk (w.branch c c.act dest)))

/-- RET (06 R151). -/
def execRet (a : VReg) (ra : Bool) (s : State) : Res := warpOp (.ret a ra) s fun wk w c => indirect s wk w c a

/-- JMPI (06 R151). -/
def execJmpi (a : VReg) (ra : Bool) (s : State) : Res := warpOp (.jmpi a ra) s fun wk w c => indirect s wk w c a

/-- EXIT (06 R152; 04 R98; 02 R33). In a save handler it ends the save of the warp (10 R312). -/
def execExit (p : BitVec 3) (n : Bool) (s : State) : Res :=
  warpOp (.exit p n) s fun wk w c =>
    let out := w.predN p.toNat n &&& c.act
    let act := c.act &&& ~~~out
    let w := { w with live := w.live &&& ~~~out }
    let w := if act == 0 then w.endClause c else w.advance { c with act := act } s.insnLen
    let w := s.lastExit wk w.rcwCheck
    .next ((s.setWarp wk w).tryRetire wk)

/-- RCW (02 R32, R33; 06 R153): the active lanes park in the open RCW, at the clause after it. -/
def execRcw (q : BitVec 2) (bound : BitVec 16) (s : State) : Res :=
  warpOp (.rcw q bound) s fun wk w c =>
    let now := (s.core (wkCore wk)).cycles
    let open_ : OpenRcw := { addr := s.ctl.insn.pc, q := q.toNat, bound := bound.toNat, base := 0, since := now, lanes := 0 }
    let r := w.rcw.getD open_
    if r.addr != s.ctl.insn.pc then trapRes s cConvergence c.act
    else
      let w1 := { w with rcw := some { r with lanes := r.lanes ||| c.act } }
      .next (s.setWarp wk (w1.branch c c.act fun _ => c.nexth).rcwCheck)

/-- Scratchpad stores and atomics of a warp that are not yet at their banks (08 R255; 07 Table 7-4). -/
def State.scrPending (s : State) (who : Who) : Bool :=
  s.ops.any fun o => o.2.who == who && o.2.elems.any (fun e => !e.done && e.isScr) &&
    (match o.2.kind with
     | .acc .store => true
     | .acc (.atom ..) => true
     | _ => false)

/-- One arrival of the warp on a barrier (02 R37; 06 R154), parking it or not. -/
def arrive (s : State) (wk : Nat) (w : Warp) (c : ClausePos) (b : Nat) (park : Bool) : Res :=
  match kget s.groups w.gk with
  | none => .fault .noIssuer
  | some g =>
    let x := g.bar b
    let bit := BitVec.ofNat 256 (2 ^ w.ix)
    if x.arr &&& bit != 0 then trapRes s cOperand c.act
    else if s.scrPending (.warp wk) then waitRetry s
    else
      let w := w.advance c s.insnLen
      let w := if park then { w with park := .barg b } else w
      let s := (s.setWarp wk w).modGroup w.gk fun g => { g with bars := kset g.bars b { x with arr := x.arr ||| bit } }
      .next (s.tryBarrier w.gk b)

/-- BARG (06 R154). -/
def execBarg (b : BitVec 4) (s : State) : Res := warpOp (.barg b) s fun wk w c => arrive s wk w c b.toNat true

/-- BARA (06 R154). -/
def execBara (b : BitVec 4) (s : State) : Res := warpOp (.bara b) s fun wk w c => arrive s wk w c b.toNat false

/-- WANY (02 R52, R53; 06 R156). -/
def execWany (m : BitVec 8) (s : State) : Res :=
  warpOp (.wany m) s fun wk w c =>
    if (w.selected m).isEmpty then trapRes s cOperand c.act
    else
      let stay := lanesOf (c.here &&& w.live &&& ~~~c.act)
      let w1 := { if stay.isEmpty then w else w.fallTo stay c.nexth with clause := none, swWait := c.sw }
      let now := (s.core (wkCore wk)).cycles
      let park := fun (won : Option (Nat × Nat)) =>
        s.setWarp wk { w1 with park := .wany m c.act 0 now s.ctl.insn, won := won }
      match s.wanySelect wk w m 0 with
      | some i =>
        let v := s.ebValue wk w (w.eb64 i) 0
        match s.checkTarget w (ebHandler (w.eb64 i)) with
        | .ok => .next (s.setWarp wk (w1.wanyGo i c.act v))
        | .bad => trapRes s cTarget c.act
        | .prot va => trapRes s cProtection c.act va
        | _ => .next ((park (some (i, v))).wanyCheck wk)
      | none => .next (park none)

/-- Whether the word of an EBIND is legal (02 R50; 06 R155): a landing window must be enabled and armed by the context. -/
def ebOk (s : State) (w : Warp) (x : Nat) : Bool :=
  let sel := ebSel x
  bitsOf x 56 5 == 0 && x % 4 == 0 &&
    match ebKind x with
    | 0 => sel == 0
    | 1 => decide (sel < 16)
    | 2 => decide (sel < 256)
    | 3 => sel == 0
    | 4 => let v := s.win (bitsOf sel 18 6); v.en && v.ctx == some (gkGrid w.gk)
    | 5 => true
    | 6 => sel == 0
    | _ => false

/-- EBIND (06 R155). -/
def execEbind (d : BitVec 3) (a b : SReg) (s : State) : Res :=
  warpOp (.ebind d a b) s fun wk w c =>
    let x := (rget w.s b.toNat).toNat + 2 ^ 32 * (rget w.s a.toNat).toNat
    if ebOk s w x then doneWarp s wk { w with eb := sset 0 w.eb d.toNat (BitVec.ofNat 64 x) } c
    else trapRes s cOperand c.act

/-- EMASK (06 R157). -/
def execEmask (op : BitVec 2) (m : BitVec 8) (d : SReg) (s : State) : Res :=
  warpOp (.emask op m d) s fun wk w c =>
    doneWarp s wk (if op == 3 then { w with s := rset w.s d.toNat w.emask }
                   else { w with emask := wrEmask op.toNat w.emask (m.setWidth 32) }) c

/-- ECLR (06 R158). -/
def execEclr (rd : Bool) (d a : SReg) (s : State) : Res :=
  warpOp (.eclr rd d a) s fun wk w c =>
    let w' := { w with pend := wr1c w.pend (rget w.s a.toNat) 18 }
    doneWarp s wk (if rd then { w' with s := rset w.s d.toNat w.pend } else w') c

/-- YIELD (06 R159): the arbiter passes the warp over at the next boundary. -/
def execYield (s : State) : Res := warpOp .yield s fun wk w c => doneWarp s wk { w with yield := true } c

/-- Whether an SJMP is taken, by FN (06 R165). -/
def sjmpTake (f : BitVec 3) (d : SReg) (q : BitVec 4) : Bool :=
  match f.toNat with
  | 0 => qbit q (d.toNat % 4)
  | 1 => !qbit q (d.toNat % 4)
  | _ => true

/-- SJMP (06 R165). -/
def execSjmp (f : BitVec 3) (d a : SReg) (imm : Word) (s : State) : Res :=
  agentOp (.sjmp f d a imm) s
    (fun wk w c =>
      let t := if f == 4 then (rget w.s a.toNat).toNat else imm.toNat
      let go := if sjmpTake f d w.q then c.act else 0
      withTargets s wk w c [t]
        (if f == 3 then withLink s w c fun l =>
           .next (s.setWarp wk ({ w with s := rset w.s d.toNat (BitVec.ofNat 32 l) }.branch c go fun _ => t))
         else .next (s.setWarp wk (w.branch c go fun _ => t))))
    (fun m x c =>
      let t := if f == 4 then (rget x.s a.toNat).toNat else imm.toNat
      let x' := if f == 3 then { x with s := rset x.s d.toNat (BitVec.ofNat 32 (x.linkFrom c.nexth)) } else x
      if x.targetOk t then
        .next (s.setMend m { x' with clause := none, pc := if sjmpTake f d x.q then t else c.nexth })
      else trapRes s cTarget)

/-! ### REGRP -/

/-- Lanes of the fused warp in order: the recipient's, then the donor's (02 R44). -/
def fuseOrder (r d : Warp) : List (Bool × Nat) := (lanesOf r.live).map (true, ·) ++ (lanesOf d.live).map (false, ·)

/-- The register file after fusion (02 R44). -/
def fuseRegs (r d : Warp) (a b : Nat) : Regs :=
  ((List.range (fuseOrder r d).length).zip (fuseOrder r d)).foldl (fun f e =>
    (List.range r.held).foldl (fun f x =>
      let v := if e.2.1 then r.vget x e.2.2 else if a ≤ x && x ≤ b then d.vget x e.2.2 else 0
      rset f (vkey x e.1) v) f) []

/-- A predicate after fusion. -/
def fusePred (r d : Warp) (p : Nat) : Lanes :=
  maskOf (List.range (fuseOrder r d).length) fun k =>
    match (fuseOrder r d)[k]? with
    | some (true, l) => (pget r.p p).getLsbD l
    | some (false, l) => (pget d.p p).getLsbD l
    | none => false

/-- Batch numbers of a donor, kept apart from the recipient's. -/
def donorSeq (d : Warp) (x : Nat) : Nat := x + 2 ^ 40 * (d.ix + 1)

/-- The recipient after fusion (02 R44; 05 R144). -/
def fuseWarp (r d : Warp) (a b nexth : Nat) (sw : Bool) : Warp :=
  let n := (fuseOrder r d).length
  { r with
    v := fuseRegs r d a b, p := (List.range 7).foldl (fun m i => pset m i (fusePred r d i)) [],
    live := lanesFull n, pcs := setPcs [] (List.range n) nexth, pend := r.pend ||| d.pend, aflags := r.aflags ||| d.aflags,
    sealed := r.sealed ++ d.sealed.map (fun x => { x with seq := donorSeq d x.seq }),
    clause := none, park := .none, swWait := sw, merged := [],
    ibufs := (d.ibufs.map fun b => { b with own := false }) ++ r.ibufs,
    hst := if d.hst.unacc then { r.hst with last := d.hst.last, unacc := true } else r.hst }

/-- The donor's operations become the recipient's. -/
def State.reown (s : State) (dk rk : Nat) (d : Warp) : State :=
  let ops := kmap (fun _ (o : Op) =>
    if o.who == .warp dk then
      let kind := match o.kind with
        | .async w k ahead us e b => .async w k ahead us e (donorSeq d b)
        | x => x
      { o with who := .warp rk, slot := none, kind := kind }
    else o) s.ops
  let s := { s with ops := ops }
  let s := s.modGroup d.gk fun g => { g with mq := g.mq.map fun e => if e.wk == dk then { e with wk := rk, slot := none } else e }
  let moved := ((s.core (wkCore dk)).mbox.filter fun m => m.tgt == dk % 128).map fun m => { m with tgt := rk % 128 }
  let s := s.modCore (wkCore dk) fun c => { c with mbox := dropMsgs c.mbox [dk % 128] }
  let s := s.modCore (wkCore rk) fun c => { c with mbox := c.mbox ++ moved }
  { s with sends := s.sends.map fun x => if x.core == wkCore dk && x.msg.tgt == dk % 128 then { x with core := wkCore rk, msg := { x.msg with tgt := rk % 128 } } else x }

/-- The fusion of two warps that have met (02 R43, R44). -/
def State.fuse (s : State) (rk dk a b nexth : Nat) (sw : Bool) : State :=
  match kget s.warps rk, kget s.warps dk with
  | some r, some d =>
    let d := if s.batchOps dk d.batch then d.sealOpen none else d
    let s := s.reown dk rk d
    let s := s.setWarp rk (fuseWarp r d a b nexth sw)
    (s.leaveWarp dk d).memberDetach d.gk
  | _, _ => s

/-- Variable-latency register writes of a warp that are outstanding (02 R43). -/
def State.anyPending (s : State) (wk gk : Nat) : Bool :=
  s.ops.any (fun o => o.2.who == .warp wk && o.2.lands) ||
    (s.warpEnts wk gk).any fun e => match e.work with
      | .tmovTv .. => true
      | _ => false

/-- The warps parked in REGRP that wait for warp ix: index, key, lanes, instruction. -/
def State.regrpWaiters (s : State) (g : Group) (ix : Nat) : List (Nat × Nat × Lanes × Insn) :=
  g.wks.filterMap fun e => match kget s.warps e.2 with
    | some w => match w.park with
      | .regrp m _ _ _ insn => if (e.1 ^^^ m) == ix then some (e.1, e.2, w.live, insn) else none
      | _ => none
    | none => none

/-- The partner that a REGRP names, when it is resident: its key, itself, and the instruction it is parked in, if it is
parked in REGRP. -/
def State.regrpMate (s : State) (g : Group) (other : Nat) : Option (Nat × Warp × Option Insn) :=
  (kget g.wks other).bind fun k => (kget s.warps k).map fun o => (k, o, match o.park with
    | .regrp _ _ _ _ insn => some insn
    | _ => none)

/-- Traps of a cause in the issuer of a REGRP and in its partner (02 R43; 15 R378): the issuer's active lanes, the
partner's live lanes. A partner that has not issued a REGRP is recorded at the issuer's instruction (log 89). -/
def regrpBoth (wk : Nat) (act : Lanes) (insn : Insn) (cause : Nat) (mate : Option (Nat × Warp × Option Insn)) : List (Nat × TrapInfo) :=
  (wk, TrapInfo.plain cause act insn) :: match mate with
    | some (k, o, i) => [(k, TrapInfo.plain cause o.live (i.getD insn))]
    | none => []

/-- The convergence conditions of R43 on the issuer and its partner. A lane that is parked in an open RCW counts as live
here, as R32 counts it, though not as R28 does (log 100). -/
def regrpMeets (s : State) (w : Warp) (c : ClausePos) (other : Nat) (o : Warp) : Bool :=
  match o.park with
  | .regrp m _ _ _ insn => (other ^^^ m) == w.ix && insn.pc == s.ctl.insn.pc && o.width == w.width && c.act == w.live &&
      decide ((lanesOf w.live).length + (lanesOf o.live).length ≤ w.width)
  | _ => c.act == w.live

/-- The traps of the warps parked for a warp whose REGRP names another one (06 R176). -/
def State.regrpThirds (s : State) (g : Group) (ix other : Nat) : List (Nat × TrapInfo) :=
  ((s.regrpWaiters g ix).filter fun x => x.1 != other).map fun x => (x.2.1, TrapInfo.plain cConvergence x.2.2.1 x.2.2.2)

/-- The traps that a REGRP leads to (02 R43; 06 R176): warps parked for the issuer that it does not name; the issuer with
a partner that has retired; both, when they break a condition. -/
def State.regrpTraps (s : State) (wk : Nat) (w : Warp) (c : ClausePos) (g : Group) (other : Nat) : List (Nat × TrapInfo) :=
  let mate := s.regrpMate g other
  s.regrpThirds g w.ix other ++ match mate with
    | none => regrpBoth wk c.act s.ctl.insn cConvergence none
    | some (_, o, _) => if regrpMeets s w c other o then [] else regrpBoth wk c.act s.ctl.insn cConvergence mate

/-- REGRP (02 R43, R44; 06 R176; 09 R278): the checks of its operands, then the wait for outstanding writes, and of a
donor's matrix instructions; then it traps, fuses with its partner, or parks until the partner issues it. -/
def execRegrp (a b : VReg) (m : BitVec 7) (s : State) : Res :=
  warpOp (.regrp a b m) s fun wk w c =>
    match kget s.groups w.gk with
    | none => .fault .noIssuer
    | some g =>
      let other := w.ix ^^^ m.toNat
      let count := match kget s.grids (gkGrid w.gk) with
        | some r => r.desc.warps
        | none => 1
      let parked : Option (Nat × Warp × Option Insn) := match s.regrpMate g other with
        | some (k, o, some i) => some (k, o, some i)
        | _ => none
      let short : Bool := match parked with
        | some (_, o, _) => decide (o.held ≤ b.toNat)
        | none => false
      let all := fun (l : List (Nat × TrapInfo)) => Outcome.next (s.together fun s => l.foldl (fun s x => s.takeTrap x.1 x.2) s)
      if m == 0 || count ≤ other then trapRes s cOperand c.act
      else if b.toNat < a.toNat then all (s.regrpThirds g w.ix other ++ regrpBoth wk c.act s.ctl.insn cOperand none)
      else if w.held ≤ b.toNat || short then
        all (s.regrpThirds g w.ix other ++ regrpBoth wk c.act s.ctl.insn cOperand (s.regrpMate g other))
      else if s.anyPending wk w.gk || (decide (other < w.ix) && !(s.warpEnts wk w.gk).isEmpty) then waitRetry s
      else match s.regrpTraps wk w c g other, parked with
        | x :: r, _ => all (x :: r)
        | [], some (k, _, _) =>
          if w.ix < other then .next (s.fuse wk k a.toNat b.toNat c.nexth c.sw)
          else .next (s.fuse k wk a.toNat b.toNat c.nexth c.sw)
        | [], none => .next (s.setWarp wk { w with clause := none, park := .regrp m.toNat a.toNat b.toNat c.nexth s.ctl.insn })

end Sys2Proof.Machine
end

