-- ==== Sys2Proof/Machine/MemoryClass.lean ====
section
/-! DEFINITION. The memory class and the scalar accesses (06 R166; 07 R186 to R207): the checks at issue, the elements
of an access, its homes in scratchpad and seam window, and fences. -/

namespace Sys2Proof.Machine

open Host

/-! ### Elements of an access -/

/-- Elements of the lanes of a list: cnt of esz bytes from ea, each with the register it delivers to (07 R190). -/
def accElems (ls : List Nat) (cnt esz d : Nat) (ea : Nat → Nat) (data : Nat → Nat → Nat) : List Elem :=
  ls.flatMap fun l => (List.range cnt).map fun k =>
    Elem.virt l (ea l + k * esz) esz (BitVec.ofNat 64 (data l k)) 0 (d + k * regsOf (esz == 8))

/-- No data. -/
def noData : Nat → Nat → Nat := fun _ _ => 0

/-- The first register of element k of a run from d. -/
def runReg (esz d k : Nat) : Nat := d + k * regsOf (esz == 8)

/-! ### The address map of a mending core (07 R194) -/

/-- A space of Table 7-13. -/
inductive MSpace where
  | virt (va : Nat)
  | place (p : Place)
  | bad
  deriving DecidableEq, Repr

/-- The space of an effective address of mending core m (07 Table 7-13). -/
def mendSpace (m a : Nat) : MSpace :=
  match a / 2 ^ 59 with
  | 0 => if a < 2 ^ 57 then .virt a else .bad
  | 16 => if bitsOf a 45 14 == 0 then .place (.loc (a % 2 ^ 45) .loc) else .bad
  | 17 => if bitsOf a 30 29 == 0 then .place (.carve (a % 2 ^ 30)) else .bad
  | 18 => .place (.peer (bitsOf a 45 14) (a % 2 ^ 45) false false)
  | 31 => if bitsOf a 21 38 == 0 then .place (.sram m (a % 2 ^ 21)) else .bad
  | _ => .bad

/-- Whether a number names a resident or saved context (07 R232): a grid whose groups have not all ended,
from its launch on (log 111). -/
def State.ctxLive (s : State) (ctx : Nat) : Bool :=
  match kget s.grids ctx with
  | some g => g.killed == none && decide (g.fin < g.ngroups)
  | none => false

/-- Whether the home of a place has lost its sector (16 R408). -/
def State.placeLost (s : State) (p : Place) : Bool :=
  match p with
  | .loc a _ => (s.mem.sec (a / 4096)).lost
  | .carve a => s.mem.lostCarve.contains (a / 4096)
  | _ => false

/-- The tables that an access of a mending core walks: at hand, asked for, or in a lost sector (07 R194). -/
def State.mendWalk (s : State) (m : Nat) (x : Mend) (ea : Nat) : State × Bool :=
  match mendSpace m ea with
  | .virt va =>
    let ctx := x.ctxsel.toNat
    match s.walkWaits ctx (s.lined ctx va false) true with
    | some a => if s.placeLost (.loc a .loc) then (s, true)
      else match s.walkGate ctx [s.lined ctx va false] true with
        | (t, false) => (t.stallWalk ctx [s.lined ctx va false] true, false)
        | r => r
    | none => (s, true)
  | _ => (s, true)

/-- The place of an access of a mending core, or the cause of its trap (07 R194): a walk that cannot read a table leaves the
translation incomplete. -/
def State.mendPlace (s : State) (m : Nat) (x : Mend) (kind a : Nat) : Place ⊕ Nat :=
  let ended : Place → Place ⊕ Nat := fun p =>
    let p := s.homePlace p
    match p with
    | .loc y _ => match leaseReason (s.mem.leaseAt y) with
      | some r => .inr (reasonCause r)
      | none => if s.placeLost p then .inr cUncorrectable else .inl p
    | _ => if s.placeLost p then .inr cUncorrectable else .inl p
  match mendSpace m a with
  | .bad => .inr cProtection
  | .place p => ended p
  | .virt va =>
    if !s.ctxLive x.ctxsel.toNat then .inr cOperand
    else if (s.walkWaits x.ctxsel.toNat (s.lined x.ctxsel.toNat va false) true).isSome then .inr cUncorrectable
    else match s.check x.ctxsel.toNat kind false va with
      | .prot => .inr cProtection
      | .event w => .inr (if w.kind == 10 then cTranslation else reasonCause w.reason)
      | .ok p _ _ => ended p

/-- An operation of the issuing mending core. -/
def State.mendAcc (s : State) (m : Nat) (x : Mend) (a : Acc) (es : List Elem) : Op :=
  { who := .mend m, ctx := x.ctxsel.toNat, gk := 0, insn := s.ctl.insn, kind := .acc a, lanes := 0, slot := none,
    elems := es, hold := [], want := [], epoch := 0 }

/-- A request of a mending core to device virtual space is counted, once for each 128-byte block, and its translation is
kept (03 R68, R70). -/
def State.mendCount (s : State) (m : Nat) (x : Mend) (kind : Nat) (o : Op) : State :=
  let ctx := x.ctxsel.toNat
  let vas := o.elems.filterMap fun e => match mendSpace m e.va with
    | .virt va => some (s.lined ctx va false)
    | _ => none
  let blks := vas.foldl (fun (l : List Nat) va => if l.any fun y => y / 128 == va / 128 then l else l ++ [va]) []
  blks.foldl (fun s va => match s.check ctx kind false va with
    | .ok (.host _ _) _ _ => s
    | .ok _ l big => (s.countReq ctx kind va (s.srcOf (.mend m) ctx none) l big).keepXlat ctx va (.leaf l big)
    | _ => s) s

/-- Issues an access of a mending core: alignment, the address map, then its elements go to their homes. It waits for the
tables that its translation walks. -/
def issueMend (s : State) (m : Nat) (x : Mend) (c : ClausePos) (o : Op) (kind align ea : Nat) : Res :=
  if s.acqPending (.mend m) then waitRetry s
  else match s.mendWalk m x ea with
  | (t, false) => .next t
  | (_, true) =>
    match s.mendPlace m x kind ea with
    | .inr cause =>
      if cause == cOperand then trapRes s cOperand
      else if ea % align != 0 then trapRes s cMisaligned 0 ea
      else trapRes s cause 0 ea
    | .inl _ =>
      if ea % align != 0 then trapRes s cMisaligned 0 ea
      else
        let es := o.elems.map fun e =>
          match s.mendPlace m x kind e.va with
          | .inl p => { e with place := some p }
          | .inr _ => e
        let o := { o with elems := es }
        match s.refusals o [] with
        | y :: _ => trapRes s y.2.1 0 ea y.2.2
        | [] =>
          let k := s.opNo
          .next (((((s.setMend m (x.advance c s.insnLen)).addOp o).mendCount m x kind o).dropHost k).pumpOp k)

/-! ### Loads and stores of device virtual space -/

/-- A load of device virtual space (07 R195, R196), from the L1 or not. -/
def loadOp (i : Instr) (s : State) (l1 : Bool) (d : VReg) (cnt : BitVec 2) (m : MemOpnd) (off : VReg) (ty : BitVec 4)
    (slot : BitVec 3) : Res :=
  let esz := esize ty.toNat
  let n := cntOf cnt
  agentOp i s
    (fun wk w c =>
      let ls := lanesOf c.act
      let ea := memEa m w true off (esz * n)
      issueVirt s wk w c (s.warpAcc wk w c (.load l1 ty.toNat true) (accElems ls n esz d.toNat ea noData) (some slot.toNat))
        (esz * n) (ls.map fun l => (l, ea l)))
    (fun k x c =>
      let ea := memEaMend m x.s off (esz * n)
      issueMend s k x c (s.mendAcc k x (.load false ty.toNat false) (accElems [0] n esz d.toNat (fun _ => ea) noData)) 0
        (esz * n) ea)

/-- LD (07 R195). -/
def execLd (d : VReg) (cnt : BitVec 2) (m : MemOpnd) (off : VReg) (ty : BitVec 4) (slot : BitVec 3) (s : State) : Res :=
  loadOp (.ld d cnt m off ty slot) s true d cnt m off ty slot

/-- LDB (07 R196). -/
def execLdb (d : VReg) (cnt : BitVec 2) (m : MemOpnd) (off : VReg) (ty : BitVec 4) (slot : BitVec 3) (s : State) : Res :=
  loadOp (.ldb d cnt m off ty slot) s false d cnt m off ty slot

/-- ST (07 R197). -/
def execSt (d : VReg) (cnt : BitVec 2) (m : MemOpnd) (off : VReg) (ty : BitVec 4) (slot : Slot) (s : State) : Res :=
  let esz := esize ty.toNat
  let n := cntOf cnt
  agentOp (.st d cnt m off ty slot) s
    (fun wk w c =>
      let ls := lanesOf c.act
      let ea := memEa m w true off (esz * n)
      let data := fun l k => w.vval (esz == 8) (runReg esz d.toNat k) l
      issueVirt s wk w c
        (s.warpAcc wk w c .store (accElems ls n esz d.toNat ea data) (slot.map (·.toNat))) (esz * n) (ls.map fun l => (l, ea l)))
    (fun k x c =>
      let ea := memEaMend m x.s off (esz * n)
      let data := fun _ j => sval x.s (esz == 8) (runReg esz d.toNat j)
      issueMend s k x c (s.mendAcc k x .store (accElems [0] n esz d.toNat (fun _ => ea) data)) 1 (esz * n) ea)

/-- The address of SLD and SST (06 R166). -/
def scalarEa (r : Regs) (a : SReg) (w : Bool) (k : BitVec 9) : Nat :=
  wrapInt 64 (sval r true a.toNat + k.toInt * (if w then 8 else 4))

/-- The lane of a scalar access in records: the lowest active lane (log 18). -/
def firstLane (c : ClausePos) : Nat := (lanesOf c.act).headD 0

/-- SLD (06 R166). -/
def execSld (d a : SReg) (w : Bool) (slot : BitVec 3) (k : BitVec 9) (s : State) : Res :=
  let n := if w then 8 else 4
  let ty := if w then 7 else 6
  agentOp (.sld d a w slot k) s
    (fun wk x c =>
      let ea := scalarEa x.s a w k
      issueVirt s wk x c (s.warpAcc wk x c (.load true ty false) (accElems [firstLane c] 1 n d.toNat (fun _ => ea) noData)
        (some slot.toNat)) n [(firstLane c, ea)])
    (fun m x c =>
      let ea := scalarEa x.s a w k
      issueMend s m x c (s.mendAcc m x (.load false ty false) (accElems [0] 1 n d.toNat (fun _ => ea) noData)) 0 n ea)

/-- SST (06 R166). -/
def execSst (d a : SReg) (w : Bool) (k : BitVec 9) (s : State) : Res :=
  let n := if w then 8 else 4
  agentOp (.sst d a w k) s
    (fun wk x c =>
      let ea := scalarEa x.s a w k
      let data := fun _ _ => sval x.s w d.toNat
      issueVirt s wk x c
        (s.warpAcc wk x c .store (accElems [firstLane c] 1 n d.toNat (fun _ => ea) data) none) n [(firstLane c, ea)])
    (fun m x c =>
      let ea := scalarEa x.s a w k
      let data := fun _ _ => sval x.s w d.toNat
      issueMend s m x c (s.mendAcc m x .store (accElems [0] 1 n d.toNat (fun _ => ea) data)) 1 n ea)

/-! ### Scratchpad and seam window (03 R87, R90; 02 R46; 07 R198; 15 R387) -/

/-- Scratchpad bytes of a group's kernel. -/
def State.scratchOf (s : State) (gk : Nat) : Nat :=
  match kget s.grids (gkGrid gk) with
  | some g => g.desc.scratch
  | none => 0

/-- What the checks of a scratchpad or seam-window address give. -/
inductive SChk where
  | ok (p : Place)
  | prot
  | notJoined
  | departed (peer : Nat)
  deriving DecidableEq, Repr

/-- A scratchpad address (03 R87). -/
def State.scrCheck (s : State) (gk swz ea : Nat) : SChk := if ea < s.scratchOf gk then .ok (.scr gk ea swz) else .prot

/-- A seam-window address (03 R90; 02 R46; 15 R387): PROTECTION before SEAM_NOT_JOINED, but for a group in no seam. The size of
a member on another device is known there, where an offset beyond it is refused with PROTECTION (log 29). -/
def State.seamCheck (s : State) (w : Warp) (swz ea : Nat) : SChk :=
  match s.seamOf w.gk with
  | none => .notJoined
  | some (r, _) =>
    let i := ea / 2 ^ 20
    let loc : Option Nat := match kget s.seams r.id with
      | some m => (m.locals.find? fun e => e.1 == i).map (·.2)
      | none => none
    let peer := r.peers.getD i 0
    if r.members ≤ i then .prot
    else if loc.any fun gk => decide (s.scratchOf gk ≤ ea % 2 ^ 20) then .prot
    else if !w.joined then .notJoined
    else
      let gone : Bool := match kget s.seams r.id with
        | some m => m.gones.getLsbD i
        | none => true
      if gone then .departed peer
      else match loc with
        | some gk => .ok (.scr gk (ea % 2 ^ 20) swz)
        | none => .ok (.seam peer r.id ea swz)

/-- The check of either window. -/
def State.bankCheck (s : State) (w : Warp) (seam : Bool) (swz ea : Nat) : SChk :=
  if seam then s.seamCheck w swz ea else s.scrCheck w.gk swz ea

/-- Lanes whose check gives a failure. -/
def lanesBy (cs : List (Nat × Nat × SChk)) (f : SChk → Bool) : List (Nat × Nat × SChk) := cs.filter fun x => f x.2.2

/-- The first failure among checks of lanes and addresses: cause, DETAIL, lanes (15 R378). -/
def bankFault (cs : List (Nat × Nat × SChk)) : Option (Nat × Nat × List (Nat × Nat × SChk)) :=
  match lanesBy cs fun x => x == .prot, lanesBy cs fun x => x == .notJoined,
      lanesBy cs fun x => match x with
        | .departed _ => true
        | _ => false with
  | x :: r, _, _ => some (cProtection, 0, x :: r)
  | [], x :: r, _ => some (cNotJoined, 0, x :: r)
  | [], [], (l, a, .departed p) :: r => some (cDeparted, p, (l, a, .departed p) :: r)
  | [], [], _ => none

/-- Issues a scratchpad or seam-window access: alignment, range, seam (15 R378), then the request. -/
def issueBank (s : State) (wk : Nat) (w : Warp) (c : ClausePos) (o : Op) (seam : Bool) (swz align : Nat)
    (eas : List (Nat × Nat)) : Res :=
  if s.acqPending (.warp wk) || slotFull w o.slot then waitRetry s
  else
    match eas.filter fun e => e.2 % align != 0 with
    | e :: r => trapRes s cMisaligned (lanesMask ((e :: r).map (·.1))) e.2
    | [] =>
      match bankFault (eas.map fun e => (e.1, e.2, s.bankCheck w seam swz e.2)) with
      | some (cause, detail, l) => trapRes s cause (lanesMask (l.map (·.1))) ((l.headD (0, 0, .prot)).2.1) detail
      | none =>
        let es := o.elems.map fun e => match s.bankCheck w seam swz e.va with
          | .ok p => { e with place := some p }
          | _ => e
        issueOp s wk w c { o with elems := es, seam := seam }

/-- LDS (07 R198). -/
def execLds (d : VReg) (cnt : BitVec 2) (seam : Bool) (swz : BitVec 2) (m : MemOpnd) (off : VReg) (ty : BitVec 4)
    (slot : BitVec 3) (s : State) : Res :=
  bankOp (.lds d cnt seam swz m off ty slot) s fun wk w c =>
    let esz := esize ty.toNat
    let n := cntOf cnt
    let ls := lanesOf c.act
    let ea := memEa m w false off (esz * n)
    issueBank s wk w c (s.warpAcc wk w c (.load false ty.toNat true) (accElems ls n esz d.toNat ea noData) (some slot.toNat))
      seam swz.toNat (esz * n) (ls.map fun l => (l, ea l))

/-- STS (07 R198). -/
def execSts (d : VReg) (cnt : BitVec 2) (seam : Bool) (swz : BitVec 2) (m : MemOpnd) (off : VReg) (ty : BitVec 4)
    (slot : Slot) (s : State) : Res :=
  bankOp (.sts d cnt seam swz m off ty slot) s fun wk w c =>
    let esz := esize ty.toNat
    let n := cntOf cnt
    let ls := lanesOf c.act
    let ea := memEa m w false off (esz * n)
    let data := fun l k => w.vval (esz == 8) (runReg esz d.toNat k) l
    issueBank s wk w c (s.warpAcc wk w c .store (accElems ls n esz d.toNat ea data) (slot.map (·.toNat)))
      seam swz.toNat (esz * n) (ls.map fun l => (l, ea l))

/-! ### Atomics (07 R200 to R203) -/

/-- Elements of an atomic: data and, for cas, swap, each lane's own or one scalar for all. -/
def atomElems (f : BitVec 3) (d c : VReg) (ty : BitVec 4) (sd : Bool) (r : Regs) (vv : Nat → Nat → Nat) (ls : List Nat)
    (ea : Nat → Nat) : List Elem :=
  let esz := esize ty.toNat
  let wide := esz == 8
  let val := fun l i => if sd then sval r wide i else vv i l
  ls.map fun l =>
    { Elem.virt l (ea l) esz (BitVec.ofNat 64 (val l c.toNat)) 0 d.toNat with
      swap := if f == 7 then BitVec.ofNat 64 (val l (c.toNat + regsOf wide)) else 0 }

/-- Whether every byte of a store that is not home is on its way to the host: a release of system scope waits for these by
its own read (11 R327). -/
def Op.atHost (o : Op) : Bool := !o.allDone && o.elems.all fun e => e.done || (e.sent && e.toHost)

/-- Scratchpad stores of the issuer, or all its stores and atomics: what FENCE.REL of a scope waits for (07 Table 7-4); and
its loads that their homes have not served, so that none is served after what follows the release (08 R253). -/
def State.relWaits (s : State) (who : Who) (scope : Nat) (pair : Bool) : Bool :=
  if 3 ≤ scope || (pair && scope == 1) then
    s.ops.any (fun o => o.2.who == who && (match o.2.kind with
      | .acc .store => !o.2.atHost
      | .acc (.atom ..) => true
      | .acc (.load ..) => !o.2.allDone
      | .acc (.tile false _) => !o.2.allDone
      | _ => false)) ||
    (match who with
     | .warp wk => match kget s.warps wk with
       | some w => (s.warpEnts wk w.gk).any fun e => match e.work with
         | .tst .. => true
         | _ => false
       | none => false
     | _ => false)
  else s.scrPending who || s.ops.any fun o => o.2.who == who && o.2.elems.any fun e => !e.done && e.isScr

/-- Host-homed stores of an issuer. -/
def State.hostOf (s : State) (who : Who) : HostStores :=
  match who with
  | .warp wk => match kget s.warps wk with
    | some w => w.hst
    | none => HostStores.none
  | .mend m => match kget s.mends m with
    | some x => x.hst
    | none => HostStores.none
  | _ => HostStores.none

/-- Changes the host-homed stores of an issuer. -/
def State.modHost (s : State) (who : Who) (f : HostStores → HostStores) : State :=
  match who with
  | .warp wk => s.modWarp wk fun w => { w with hst := f w.hst }
  | .mend m => s.modMend m fun x => { x with hst := f x.hst }
  | _ => s

/-- The flush read of a release of system scope, sent once the issuer's stores have left the buffer (11 R327). -/
def State.askFlush (s : State) (who : Who) : State :=
  let h := s.hostOf who
  if h.rd.isSome || s.host.buf.any (fun b => b.who == who) then s
  else
    let id := s.opNo
    let a := h.last.getD 0
    let s := (s.modHost who fun h => { h with rd := some id }).bumpOp
    let s := { s with host := { s.host with reqs := kset s.host.reqs id { op := 0, elems := [], n := 0, warp := some who, addr := a } } }
    s.emit (.hostFlush id a)

/-- A release of a scope: whether it is done, and the state in which it waits (07 R205; 11 R327). -/
def State.release (s : State) (who : Who) (scope : Nat) (pair : Bool) : State × Bool :=
  if s.relWaits who scope pair then (s, false)
  else if scope == 5 && ((s.hostOf who).unacc || s.host.buf.any fun b => b.who == who) then (s.askFlush who, false)
  else (s, true)

/-- Loads, TLDs and atomics of an issuer that have not returned. -/
def State.returnWaits (s : State) (who : Who) : Bool :=
  s.ops.any fun o => o.2.who == who && (match o.2.kind with
    | .acc (.load ..) => true
    | .acc (.tile false _) => true
    | .acc (.atom ..) => true
    | _ => false)

/-- Whether an ORD or fence kind has an acquire or a release part. -/
def hasAcq (k : BitVec 2) : Bool := k.getLsbD 0
def hasRel (k : BitVec 2) : Bool := k.getLsbD 1

/-- Runs on once the release part of an instruction is done. -/
def afterRelease (s : State) (who : Who) (scope : Nat) (pair rel : Bool) (k : Res) : Res :=
  if rel then
    match s.release who scope pair with
    | (_, true) => k
    | (s', false) => .next s'
  else k

/-- ATOM (07 R200 to R202). Its release part of system scope in a marked group traps (17 R424), after the checks of its
addresses (15 R378). -/
def execAtom (f : BitVec 3) (d : VReg) (m : MemOpnd) (c : VReg) (ty : BitVec 4) (ord : BitVec 2) (scope : BitVec 3)
    (noret sd : Bool) (slot : Slot) (s : State) : Res :=
  agentOp (.atom f d m c ty ord scope noret sd slot) s
    (fun wk w p =>
      let ls := lanesOf p.act
      let ea := memEa m w true 0 0
      let es := atomElems f d c ty sd w.s (fun i l => w.vval (esize ty.toNat == 8) i l) ls ea
      let a := Acc.atom f.toNat ty.toNat noret true ord.toNat scope.toNat
      afterRelease s (.warp wk) scope.toNat (s.paired w.gk) (hasRel ord)
        (checkVirt s wk w (s.warpAcc wk w p a es (slot.map (·.toNat))) (esize ty.toNat) (ls.map fun l => (l, ea l))
          fun s => if hasRel ord && scope == 5 && s.hostMarked w.gk then trapRes s cHostDown p.act
            else issueOp (s.publish w) wk w p (s.warpAcc wk w p a es (slot.map (·.toNat)))))
    (fun k x p =>
      let ea := memEaMend m x.s 0 0
      let es := atomElems f d c ty true x.s (fun _ _ => 0) [0] fun _ => ea
      let a := Acc.atom f.toNat ty.toNat noret false ord.toNat scope.toNat
      afterRelease s (.mend k) scope.toNat false (hasRel ord)
        (issueMend s k x p (s.mendAcc k x a es) 2 (esize ty.toNat) ea))

/-- ATOMS (07 R203). -/
def execAtoms (f : BitVec 3) (d : VReg) (m : MemOpnd) (c : VReg) (ty : BitVec 4) (sd : Bool) (swz : BitVec 2) (seam : Bool)
    (slot : BitVec 3) (s : State) : Res :=
  bankOp (.atoms f d m c ty sd swz seam slot) s fun wk w p =>
    let ls := lanesOf p.act
    let ea := memEa m w false 0 0
    let es := atomElems f d c ty sd w.s (fun i l => w.vval (esize ty.toNat == 8) i l) ls ea
    issueBank s wk w p (s.warpAcc wk w p (.atom f.toNat ty.toNat false true 0 0) es (some slot.toNat)) seam swz.toNat
      (esize ty.toNat) (ls.map fun l => (l, ea l))

/-! ### FENCE (07 R204, R205) -/

/-- FENCE of one issuer: it waits for its release part, then for the loads and atomics before its acquire part, which
then acts; a system-scope fence that completes in a marked group traps (17 R424). -/
def execFence (scope : BitVec 3) (kind : BitVec 2) (s : State) : Res :=
  agentOp (.fence scope kind) s
    (fun wk w c =>
      let pair := s.paired w.gk
      afterRelease s (.warp wk) scope.toNat pair (hasRel kind)
        (if hasAcq kind && s.returnWaits (.warp wk) then waitRetry s
         else if scope == 5 && s.hostMarked w.gk then trapRes s cHostDown c.act
         else doneWarp (if hasAcq kind then s.acquire (wkCore wk) scope.toNat pair else s) wk w c))
    (fun m x c =>
      afterRelease s (.mend m) scope.toNat false (hasRel kind)
        (if hasAcq kind && s.returnWaits (.mend m) then waitRetry s else doneMend s m x c))

/-! ### WADR and PREF (07 R206, R207) -/

/-- The probe word of an address of a context (07 Table 7-5). A page of the reserve lease is held in pinned frames (03 R72;
log 26). -/
def State.probeWord (s : State) (ctx va : Nat) : Nat :=
  if 2 ^ 57 ≤ va then 0
  else
    match s.xlat ctx (s.lined ctx va false) with
    | .event _ _ => 0
    | .leaf l big =>
      let base := leafLease l * 2 ^ 30 + leafPage l * 2 ^ 16
      let res := leafMode l == 0 && !leafCarve l && ((s.mem.leaseAt base).reserve ||
        (List.range (pageBytes big / 4096)).any fun k => (s.mem.sec (base / 4096 + k)).valid)
      packFields [(1, 1), ((leafRd l).toNat, 1), ((leafW l).toNat, 1), ((leafX l).toNat, 1), (leafMode l, 2),
        ((leafPressed l).toNat, 1), (res.toNat, 1)]

/-- WADR (07 R206; on a mending core R193). -/
def execWadr (d : VReg) (cnt : BitVec 2) (m : MemOpnd) (off : VReg) (ty : BitVec 4) (probe : Slot) (s : State) : Res :=
  let size := esize ty.toNat * cntOf cnt
  agentOp (.wadr d cnt m off ty probe) s
    (fun wk w c =>
      let ls := lanesOf c.act
      match probe with
      | none => doneWarp s wk (w.putLanes true d.toNat ls (memEa m w true off size)) c
      | some k =>
        if slotFull w (some k.toNat) then waitRetry s
        else match s.walkGate w.ctx (ls.map fun l => s.lined w.ctx (memEa m w true off size l) false) with
        | (t, false) => .next (t.stallWalk w.ctx (ls.map fun l => s.lined w.ctx (memEa m w true off size l) false))
        | (_, true) =>
          let es := ls.map fun l => Elem.known l 8 d.toNat (BitVec.ofNat 64 (s.probeWord w.ctx (memEa m w true off size l)))
          issueOp s wk w c (s.warpAcc wk w c .probe es (some k.toNat)))
    (fun k x c =>
      let ea := memEaMend m x.s off size
      match probe with
      | none => doneMend s k { x with s := sput x.s true d.toNat ea } c
      | some _ =>
        match mendSpace k ea with
        | .virt va =>
          if s.ctxLive x.ctxsel.toNat then match s.mendWalk k x ea with
            | (t, false) => .next t
            | (_, true) => doneMend s k { x with s := sput x.s true d.toNat (s.probeWord x.ctxsel.toNat va) } c
          else trapRes s cOperand
        | _ => doneMend s k { x with s := sput x.s true d.toNat 0 } c)

/-- PREF (07 R207): it checks R190 and R60 at issue, and neither permission nor translation traps. -/
def execPref (cnt : BitVec 2) (m : MemOpnd) (off : VReg) (ty : BitVec 4) (s : State) : Res :=
  let esz := esize ty.toNat
  let n := cntOf cnt
  agentOp (.pref cnt m off ty) s
    (fun wk w c =>
      let ls := lanesOf c.act
      let ea := memEa m w true off (esz * n)
      issueVirt s wk w c (s.warpAcc wk w c .pref (accElems ls n esz 0 ea noData) none) (esz * n) (ls.map fun l => (l, ea l)))
    (fun k x c =>
      let ea := memEaMend m x.s off (esz * n)
      match s.mendWalk k x ea with
      | (t, false) => .next t
      | (_, true) =>
        let p := s.mendPlace k x 8 ea
        if p == .inr cOperand then trapRes s cOperand
        else if ea % (esz * n) != 0 then trapRes s cMisaligned 0 ea
        else match mendSpace k ea, p with
        | .bad, _ => trapRes s cProtection 0 ea
        | _, .inl (.loc a p) =>
          let o := s.mendAcc k x .pref [Elem.at_ 0 ea 1 (.loc a p) 0 0 0]
          .next (((s.setMend k (x.advance c s.insnLen)).addOp o).serve s.opNo 0)
        | _, _ => doneMend s k x c)

end Sys2Proof.Machine
end

