-- ==== Sys2Proof/Machine/Serve.lean ====
section
/-! DEFINITION. Requests of peers at this device as their target (11 R331, R332, R335, R338; 17 R423): range tables,
operations that the device performs, waits at the home, forwards, and answers. -/

namespace Sys2Proof.Machine

open Host

/-! ### Ports and answers -/

/-- A flit is discarded, counted in LNKSTAT.DISCARD (17 Table 17-1). -/
def State.flitDrop (s : State) (port : Nat) : State :=
  s.modKport port fun p => { p with discard := BitVec.ofNat 8 (satAdd 255 p.discard.toNat) }

/-- A flit that is next in sequence is passed on. -/
def State.flitIn (s : State) (port : Nat) (f : Flit) : State := s.linkIn { port := port, seq := f.seq }

/-- An answer to a request (11 Tables 11-6, 11-7): it leaves on the port on which the request came. -/
def State.answer (s : State) (port : Nat) (f : Flit) (op : Nat) (data : List Byte) : State :=
  s.emitFlit port { s.flitTo op f.source.toNat f.addr.toNat with
    rv := f.rv, carve := f.carve, seam := f.seam, size := f.size, tag := f.tag, typ := f.typ, aop := f.aop, data := data,
    seamid := f.seamid }

/-- A refusal with a cause (17 R423). -/
def State.refuseFlit (s : State) (port : Nat) (f : Flit) (cause : Nat) : State := s.answer port f 0x14 [BitVec.ofNat 8 cause]

/-! ### What the target performs (07 Table 7-10; 11 R335) -/

/-- The ACAP bit of a function and type of an atomic, or of a reduction. -/
def acapBit (cred : Bool) (fn ty : Nat) : Option Nat :=
  let int := ty == 2 || ty == 3 || ty == 6 || ty == 7
  let w := if ty == 11 || ty % 4 == 3 && ty < 8 then 1 else 0
  if fn == 6 || fn == 7 then (if cred || !(int || ty == 10 || ty == 11) then none else some (2 + w))
  else if int then (if cred && 2 < fn then none else some w)
  else if 2 < fn then none
  else if ty == 8 || ty == 9 then (if cred then some 7 else none)
  else if ty == 10 || ty == 11 then (if fn == 0 then some (4 + w) else some 6)
  else none

/-- Whether ACAP has the operation and type of a request (17 R423). -/
def flitKnown (f : Flit) : Bool :=
  if f.op.toNat < 3 then true
  else match acapBit (f.op == 5) f.aop.toNat f.typ.toNat with
    | some b => Config.acap.getLsbD b
    | none => false

/-- Bytes of the region of a request (11 Table 11-6). -/
def flitSize (f : Flit) : Nat := 16 * 2 ^ f.size.toNat

/-- Access that a range-table entry must grant: RD, W or AT (11 Table 11-9). -/
def flitRight (f : Flit) : Nat := if f.op == 1 then 0 else if f.op == 2 then 1 else 2

/-- Whether an entry of the range table of a request's source admits it. -/
def rangeAdmits (e : BitVec 128) (f : Flit) : Bool :=
  let x := e.toNat
  bitAt x 127 && bitAt x 3 == f.carve && decide (bitsOf x 35 29 ≤ f.addr.toNat / 65536) && decide (f.addr.toNat / 65536 ≤ bitsOf x 6 29) &&
    bitAt x (flitRight f)

/-- Whether a request passes the range table as it stands at its arrival (11 R335). -/
def State.rangeOk (s : State) (f : Flit) : Bool :=
  (List.range 16).any fun i => rangeAdmits (sget 0 s.fab.range (f.source.toNat * 16 + i)) f

/-! ### Performing a request -/

/-- Places of a request: local memory, carve, or a member's scratchpad. -/
def flitPlace (p : Place) (a : Nat) : Place :=
  match p with
  | .carve _ => .carve a
  | .scr gk _ z => .scr gk a z
  | _ => .loc a .loc

/-- Bytes that a mask enables, stored from a. -/
def State.maskWrite (s : State) (p : Place) (a : Nat) (f : Flit) : State :=
  (List.range (flitSize f)).foldl (fun s i => if f.mask.getLsbD i then s.pokeAt p (a + i) (f.data.getD i 0) else s) s

/-- One element of a reduction at its home (07 R221). -/
def State.redElem (s : State) (p : Place) (a n : Nat) (f : Flit) (i : Nat) : State :=
  if (List.range n).all fun j => f.mask.getLsbD (n * i + j) then
    let q := flitPlace p (a + n * i)
    s.placeWr q n (atomNew f.aop.toNat f.typ.toNat (s.placeRd q n) (leNat ((f.data.drop (n * i)).take n)) 0)
  else s

/-- A request is performed at its home and answered (11 Table 11-7). The words of a seam-window atomic are relocated here by
the mode that comes with it (03 R90; log 82). -/
def State.flitDo (s : State) (port : Nat) (f : Flit) (p : Place) (a : Nat) : State :=
  match f.op.toNat with
  | 1 => s.answer port f 0x10 ((List.range (flitSize f)).map fun i => s.byteAt p (a + i))
  | 2 => (s.maskWrite p a f).answer port f 0x11 []
  | 5 =>
    let n := esize f.typ.toNat
    ((List.range (flitSize f / n)).foldl (fun s i => s.redElem p a n f i) s).answer port f 0x11 []
  | op =>
    let n := esize f.typ.toNat
    let q := flitPlace p a
    let old := s.placeRd q n
    let s := s.placeWr q n (atomNew f.aop.toNat f.typ.toNat old (leNat (f.data.take 8)) (leNat ((f.data.drop 8).take 8)))
    if op == 3 then s.answer port f 0x12 (leBytes 8 old) else s.answer port f 0x11 []

/-- What an arrived request may wait for beside a demand event: a lost sector, a line at the host, a fill, a free entry
of the demand queue. -/
def waitLost (carve : Bool) (sector : Nat) : Nat := 2 ^ 40 + 2 * sector + carve.toNat
def waitHost (line : Nat) : Nat := 2 ^ 60 + line
def waitFill (sector : Nat) : Nat := 2 ^ 70 + sector
def waitEntry : Nat := 2 ^ 80

/-- A request waits. -/
def State.flitWait (s : State) (port : Nat) (f : Flit) (what : Nat) : State :=
  { s with fab := { s.fab with inHeld := s.fab.inHeld ++ [(port, f, what)] } }

/-- A request meets a lease that has ended, or none: a demand event of the die of its port holds it (01 R11; 03 R75; 16 R397,
R399; log 20). -/
def State.flitEvent (s : State) (port : Nat) (f : Flit) (reason : Nat) : State :=
  let ctx := winCtx 15
  let (s, t) := s.postDemand ctx { s.srcOf .orphan ctx none with mend := port / 4 % 4 } { reason := reason, kind := flitRight f, va := f.addr.toNat }
  s.flitWait port f (t.getD waitEntry)

/-- A request at its home in local memory, past any hold or forward of its page. -/
def State.flitHome (s : State) (port : Nat) (f : Flit) : State :=
  let a := f.addr.toNat
  match leaseReason (s.mem.leaseAt a) with
  | some r => s.flitEvent port f r
  | none =>
    if (s.mem.sec (a / 4096)).lost then s.flitWait port f (waitLost false (a / 4096))
    else if s.mem.hostLines.contains (a / 128 * 2 + 1) then s.flitWait port f (waitHost (a / 128))
    else if s.mem.hostLines.contains (a / 128 * 2) then
      let m := { s.mem with hostLines := (a / 128 * 2 + 1) :: dropNat s.mem.hostLines (a / 128 * 2) }
      ({ s with mem := m }.emit (.hostRecall (a / 128))).flitWait port f (waitHost (a / 128))
    else if s.mem.valid a then s.flitDo port f (.loc a .loc) a
    else (s.askFill (a / 4096)).flitWait port f (waitFill (a / 4096))

/-- A request of a peer goes on to the new home as a request of this device, and its answer goes back; a page that this
device itself now homes is served here, since no flit goes to its own number (11 R332, R338). -/
def State.forwardFlit (s : State) (fw : Forward) (x : Nat × Flit) : State :=
  let a := fw.topg * 65536 + x.2.addr.toNat % 65536
  if fw.peer == s.mgmt.peernum.toNat then s.flitHome x.1 { x.2 with addr := BitVec.ofNat 45 a }
  else if s.fab.anyUp then
    s.kSend { slice := sliceOf fw.peer a,
              flit := { x.2 with dest := BitVec.ofNat 14 fw.peer, source := s.mgmt.peernum, addr := BitVec.ofNat 45 a },
              op := none, elems := [], back := some x, die := x.1 / 4 % 4 }
  else s.refuseFlit x.1 x.2 cPlane

/-- A request at the home of local memory, past any hold of its page. -/
def State.flitLocal (s : State) (port : Nat) (f : Flit) : State :=
  match s.mem.fwds.find? fun w => w.page == f.addr.toNat / 65536 with
  | some w => s.forwardFlit w (port, f)
  | none => s.flitHome port f

/-- Fills that arrived requests wait for are asked for again. -/
def State.reFill (s : State) : State :=
  s.fab.inHeld.foldl (fun s x => if decide (waitFill 0 ≤ x.2.2) && decide (x.2.2 < waitEntry) then s.askFill (x.2.2 - waitFill 0) else s) s

/-- The member that a seam-window request names: its group, or the cause of the refusal (03 R90; 11 R335; 15 R387; 17 R423). A
member that has left, with its grid or before it, is Gone; one that is not resident now is in no seam resident here. -/
def State.seamTarget (s : State) (f : Flit) : Except Nat Nat :=
  let a := f.addr.toNat
  let i := a / 2 ^ 20
  match kget s.seams f.seamid.toNat with
  | none => .error cRange
  | some m =>
    if !m.peers.contains f.source.toNat then .error cRange
    else if i < 16 && m.gones.getLsbD i then .error cDeparted
    else match m.locals.find? fun e => e.1 == i with
      | none => .error cRange
      | some (_, gk) => match kget s.grids (gkGrid gk), kget s.groups gk with
        | none, none => .error cDeparted
        | _, none => .error cRange
        | d, some g =>
          if g.phase == .gone then .error cDeparted
          else if !g.phase.resident then .error cRange
          else if d.any fun d => decide (d.desc.scratch ≤ a % 2 ^ 20) then .error cProtection
          else .ok gk

/-- A request that has passed the checks of its arrival is performed, or waits for its home. -/
def State.flitGo (s : State) (port : Nat) (f : Flit) : State :=
  if f.seam then match s.seamTarget f with
    | .error c => s.refuseFlit port f c
    | .ok gk => s.flitDo port f (.scr gk 0 f.swz.toNat) (f.addr.toNat % 2 ^ 20)
  else if f.carve then
    (if s.mem.lostCarve.contains (f.addr.toNat / 4096) then s.flitWait port f (waitLost true (f.addr.toNat / 4096))
     else s.flitDo port f (.carve 0) f.addr.toNat)
  else s.flitLocal port f

/-- The mending core whose hold a page is under (11 R338). -/
def State.holderOf (s : State) (page : Nat) : Option (Nat × MigHold) :=
  (s.mends.filterMap fun m => m.2.mig.map fun h => (m.1, h)).find? fun x => x.2.page == page

/-- A request arrives past its checks: a hold of its page keeps it, in arrival order (11 R338). -/
def State.flitServe (s : State) (port : Nat) (f : Flit) : State :=
  match if f.seam || f.carve then none else s.holderOf (f.addr.toNat / 65536) with
  | some (m, h) => s.modMend m fun x => { x with mig := some { h with flits := h.flits ++ [(port, f)] } }
  | none => s.flitGo port f

/-- A request that waited is taken up again. -/
def State.reArrive (s : State) (x : Nat × Flit) : State := s.flitGo x.1 x.2

/-- Requests that wait for something are taken up again. -/
def State.flitsGo (s : State) (what : Nat) : State :=
  let fl := (s.fab.inHeld.filter fun x => x.2.2 == what).map fun x => (x.1, x.2.1)
  let s := { s with fab := { s.fab with inHeld := s.fab.inHeld.filter fun x => x.2.2 != what } }
  fl.foldl (fun s x => s.reArrive x) s

/-! ### Arrival -/

/-- A flit of an OP that an arrival event is about arrives on a port. -/
def onFlit (e : Instr) (op port : Nat) (f : Flit) (s : State) (k : State → Res) : Res :=
  if f.op.toNat != op then .next s else onLink e (some { port := port, seq := f.seq }) s k

/-- A request flit of an OP arrives on a port (11 R330, R332, R335; 17 R423): one for another device is discarded; what ACAP
lacks, and what no range-table entry admits, is answered without effect. -/
def flitArrive (e : Instr) (op port : Nat) (f : Flit) (s : State) : Res :=
  onFlit e op port f s fun s =>
  if f.dest != s.mgmt.peernum then .next (s.flitDrop port)
  else if !flitKnown f then .next (s.answer port f 0x13 [])
  else if !f.seam && !s.rangeOk f then .next (s.refuseFlit port f cRange)
  else .next (s.flitServe port f)

/-- FLIT_READ (11 R332). -/
def execFlitRead (port : Nat) (f : Flit) (s : State) : Res := flitArrive (.flitRead port f) 1 port f s

/-- FLIT_WRITE (11 R332). -/
def execFlitWrite (port : Nat) (f : Flit) (s : State) : Res := flitArrive (.flitWrite port f) 2 port f s

/-- ATOMIC_WITH_RESULT (11 R332). -/
def execAtomicWithResult (port : Nat) (f : Flit) (s : State) : Res := flitArrive (.atomicWithResult port f) 3 port f s

/-- ATOMIC_WITHOUT_RESULT (11 R332). -/
def execAtomicWithoutResult (port : Nat) (f : Flit) (s : State) : Res := flitArrive (.atomicWithoutResult port f) 4 port f s

/-- REDUCTION (11 R332; 07 R221). -/
def execReduction (port : Nat) (f : Flit) (s : State) : Res := flitArrive (.reduction port f) 5 port f s

end Sys2Proof.Machine
end

