-- ==== Sys2Proof/Machine/Demand.lean ====
section
/-! DEFINITION. Answers to demand events (03 R77; 07 R235; 15 R386; 16 R399) and the control of migration holds and
forwards (11 R338): what DEMRESP and MIGCTL do, by CSRW or as the events of their own. -/

namespace Sys2Proof.Machine

open Host

/-! ### Replay and decline -/

/-- A hold that nothing holds any more is gone. -/
def Hold.done (h : Hold) : Bool := h.tags.isEmpty && h.want.isEmpty

/-- Warps whose hold has ended issue again. -/
def State.wake (s : State) : State :=
  let live : Option Hold → Option Hold := fun h => h.bind fun x => if x.done then none else some x
  { s with warps := kmap (fun _ (w : Warp) => { w with hold := live w.hold }) s.warps }

/-- Replay: the entry is free, and every held request is issued again, in the order in which it was held (03 R77 step 5). -/
def State.demReplay (s : State) (t : Nat) : State :=
  let fl := (s.fab.inHeld.filter fun x => x.2.2 == t).map fun x => (x.1, x.2.1)
  let s := { s with fab := { s.fab with inHeld := s.fab.inHeld.filter fun x => x.2.2 != t } }
  let (s, ks) := (s.freeTag t).unhold t
  (fl.foldl (fun s x => s.reArrive x) (s.wake.retryOps ks))

/-- The part of a request for sectors that a declined event held is discarded (03 R77 step 6; 07 R207). -/
def State.dropAsk (s : State) (k t : Nat) (r : DemRec) : State :=
  match kget s.ops k with
  | none => s
  | some o =>
    let es := o.elems.map fun e => if e.place == none && s.lined o.ctx e.va false / 2 ^ 16 == r.page then { e with done := true } else e
    let s := { s with ops := kset s.ops k { o with elems := es, hold := dropNat o.hold t } }
    s.retryOps [k]

/-- Whether a declined event finds an element in the midst of a write that goes on to its end: of an access that has begun, or
of a k of an engine's operation (07 R191; 15 R386; log 103). -/
def Op.midWay (o : Op) (e : Elem) : Bool := !e.done && (match o.kind with
  | .acc _ => o.begun
  | .async .. => o.midWrite e)

/-- One request that a declined event held takes the cause. -/
def State.declineOp (s : State) (k t cause : Nat) (r : DemRec) : State :=
  match kget s.ops k with
  | none => s
  | some o =>
    let mid := o.elems.filter fun e => e.place == none && s.lined o.ctx e.va (o.linesElem e) / 2 ^ 16 == r.page && o.midWay e
    if o.asks then s.dropAsk k t r
    else if !mid.isEmpty then
      (({ s with ops := kmod s.ops k fun o => { o with hold := dropNat o.hold t } }).loseElems k fun e => mid.contains e).retryOps [k]
    else
      let es := o.elems.filter fun e => e.place == none && s.lined o.ctx e.va (o.linesElem e) / 2 ^ 16 == r.page
      if o.gathers then
        s.gather k { o with hold := dropNat o.hold t } 0
          [failedOf cause (r.reason + 16 * r.kind) (if es.isEmpty then o.elems.filter fun e => e.place == none else es)]
      else s.failOp k o cause (r.reason + 16 * r.kind) (if es.isEmpty then r.va else headVa es) o.progress (elemLanes es)

/-- Trap information of a declined event. -/
def declineInfo (cause origin aux : Nat) (r : DemRec) (lanes : Lanes) (va : Nat) (insn : Insn) : TrapInfo :=
  { cause := cause, origin := origin, detail := r.reason + 16 * r.kind, aux := aux, lanes := lanes, va := va, insn := insn }

/-- Warps held at issue that a declined event held (04 R436). -/
def State.declineWarps (s : State) (t cause : Nat) (r : DemRec) : State :=
  let ws := s.warps.filterMap fun e => match e.2.hold with
    | some h => if h.tags.contains t then
        some (e.1, declineInfo cause 0 0 r (e.2.fetchLanes h.insn.pc) h.va h.insn) else none
    | none => none
  ws.foldl (fun s x => s.takeTrap x.1 x.2) s

/-- Decline: each held access takes the cause (03 R77 step 6). The warps that trap for it trap in one cycle (15 R384). -/
def State.demDecline (s : State) (t cause : Nat) : State :=
  match (kget s.mends (t / 1024)).bind fun m => kget m.dem (t % 1024) with
  | none => s
  | some r =>
    let fl := s.fab.inHeld.filter fun x => x.2.2 == t
    let s := { s with fab := { s.fab with inHeld := s.fab.inHeld.filter fun x => x.2.2 != t } }
    let s := fl.foldl (fun s x => s.refuseFlit x.1 x.2.1 cause) (s.freeTag t)
    s.together fun s =>
      let ks := (s.ops.filter fun o => o.2.hold.contains t).map (·.1)
      let s := ks.foldl (fun s k => s.declineOp k t cause r) s
      let s := s.declineWarps t cause r
      (s.unhold t).1.wake

/-- A DEMRESP write (07 R235, Table 7-12): one that names no unanswered event, or whose CAUSE does not fit, is ignored. -/
def State.demResp (s : State) (m tag : Nat) (decline : Bool) (cause : Nat) : State :=
  let known : Bool := match kget s.mends m with
    | some x => khas x.dem tag
    | none => false
  if !known then s
  else if decline then
    if 0x10 ≤ cause && cause ≤ 0x17 then s.demDecline (m * 1024 + tag) cause else s
  else if cause == 0 then s.demReplay (m * 1024 + tag) else s

/-! ### Waiting records (03 R77 step 2) -/

/-- The wishes of an operation post again: what still finds no entry goes on waiting. -/
def State.repostOp (s : State) (k : Nat) (o : Op) : State :=
  let engine := match o.kind with
    | .async _ _ _ _ e _ => some e
    | .acc _ => none
  let (s, ts, ws) := s.postAll o.ctx (s.srcOf o.who o.ctx engine) o.want
  { s with ops := kmod s.ops k fun o => { o with hold := o.hold ++ ts, want := ws } }

/-- The same for a warp held at issue. -/
def State.repostWarp (s : State) (wk : Nat) (w : Warp) (h : Hold) : State :=
  let (s, ts, ws) := s.postAll w.ctx (s.srcOf (.warp wk) w.ctx none) h.want
  s.modWarp wk fun w => { w with hold := some { h with tags := h.tags ++ ts, want := ws } }

/-- Requests held at their source for a full queue post their records while entries are free: records that hold no
request, requests of peers, operations in issue order, then warps. -/
def State.postWaiting (s : State) : State :=
  let s := s.postNotes.flitsGo waitEntry
  let s := s.ops.foldl (fun s e => if e.2.want.isEmpty then s else s.repostOp e.1 e.2) s
  s.warps.foldl (fun s e => match e.2.hold with
    | some h => if h.want.isEmpty then s else s.repostWarp e.1 e.2 h
    | none => s) s

/-- Whether some request waits for an entry. -/
def State.anyWant (s : State) : Bool :=
  let w : Option Hold → Bool := fun h => match h with
    | some h => !h.want.isEmpty
    | none => false
  !s.mem.notes.isEmpty || s.ops.any (fun e => !e.2.want.isEmpty) || s.fab.inHeld.any (fun x => x.2.2 == waitEntry) || s.warps.any fun e => w e.2.hold

/-! ### Migration (11 R338) -/

/-- Whether an element is at the home of a page and not performed. -/
def Elem.atPage (e : Elem) (page : Nat) : Bool :=
  !e.done && !e.sent && (match e.place with
    | some (.loc a _) => a / 65536 == page
    | _ => false)

/-- A hold of a page; ignored while the core holds one. -/
def State.migHold (s : State) (m page : Nat) : State :=
  let early := (s.ops.filter fun o => o.2.isAcc && o.2.elems.any fun e => e.atPage page).map (·.1)
  s.modMend m fun x =>
    match x.mig with
    | some _ => x
    | none => { x with mig := some { page := page, early := early, flits := [], held := false } }

/-- The core's hold becomes a forward to MIGTGT; with no free entry the hold stays and FULL is set. -/
def State.migForward (s : State) (m : Nat) : State :=
  match kget s.mends m with
  | none => s
  | some x =>
    match x.mig with
    | none => s
    | some h =>
      if Config.forwards ≤ s.mem.fwds.length then s.setMend m { x with full := true }
      else
        let fw : Forward := { page := h.page, peer := bitsOf x.migtgt.toNat 45 14, topg := bitsOf x.migtgt.toNat 16 29 }
        let s := s.setMend m { x with mig := none, full := false }
        let s := { s with mem := { s.mem with fwds := s.mem.fwds ++ [fw] } }
        h.flits.foldl (fun s f => s.forwardFlit fw f) s

/-- The forward of a page is cleared. -/
def State.migClear (s : State) (page : Nat) : State :=
  { s with mem := { s.mem with fwds := s.mem.fwds.filter fun f => f.page != page, farEnts := [] } }

/-- The hold ends and what it held is applied in order. -/
def State.migEnd (s : State) (m : Nat) : State :=
  match (kget s.mends m).bind (·.mig) with
  | none => s
  | some h => h.flits.foldl (fun s f => s.reArrive f) (s.modMend m fun x => { x with mig := none })

/-- A MIGCTL write (11 Table 11-16). -/
def State.migCtl (s : State) (m x : Nat) : State :=
  match bitsOf x 62 2 with
  | 0 => s.migHold m (bitsOf x 16 29)
  | 1 => s.migForward m
  | 2 => s.migClear (bitsOf x 16 29)
  | _ => s.migEnd m

/-- MIGSTAT of a core (11 Table 11-17). -/
def State.migStat (s : State) (x : Mend) : Nat :=
  let held := match x.mig with
    | some h => h.held
    | none => false
  packFields [(held.toNat, 1), (x.mig.isSome.toNat, 1), (x.full.toNat, 1), (0, 13), (Config.forwards - s.mem.fwds.length, 9)]

end Sys2Proof.Machine
end

