-- ==== Sys2Proof/Machine/Room.lean ====
section
/-! DEFINITION. Where the warps of a group stand, and the lane-blocks that they take (02 R24, R25, R35, R40; 10 R300). -/

namespace Sys2Proof.Machine

open Host

/-- Warps of a slot, by width (02 Table 2-1). -/
def perSlot (width : Nat) : Nat := 128 / width

/-- Lane-blocks of the slots' quads for n warps in ascending slots (02 R25, R40): quad and blocks. -/
def quadNeed (d : KDesc) (x : Nat → Nat) (slots : List Nat) (n : Nat) : List (Nat × Nat) :=
  (List.range n).filterMap fun i => (slots[i / perSlot d.width]?).map fun s => (slotQuad s, warpBlocks d.width (x i))

/-- The sum over one quad. -/
def needIn (l : List (Nat × Nat)) (q : Nat) : Nat := l.foldl (fun n e => if e.1 == q then n + e.2 else n) 0

/-- Lane-blocks that a supervisor warp holds in quad 3 (01 R12; 02 R40). -/
def supBlocks (q : Nat) : Nat := if q == 3 then warpBlocks 16 0 else 0

/-- Whether n warps fit a core with nothing resident but its supervisor. -/
def fitsEmpty (d : KDesc) (n : Nat) : Bool :=
  let slots := List.range ((n + perSlot d.width - 1) / perSlot d.width)
  let need := quadNeed d (fun _ => d.regx) slots n
  decide (slots.length ≤ 15) && (List.range 4).all fun q => decide (needIn need q + supBlocks q ≤ Config.laneBlocks)

/-- Warps of a paired group that go to the even core: as many as fit it (02 R35; log 33). -/
def evenCount (d : KDesc) : Nat :=
  if d.pair then ((List.range (d.warps + 1)).filter fun n => fitsEmpty d n).getLastD 0 else d.warps

/-- Warps of a group that go to its first core, and those before a half. -/
def halfStart (d : KDesc) (half : Nat) : Nat := if half == 0 then 0 else evenCount d
def halfCount (d : KDesc) (half : Nat) : Nat := if half == 0 then evenCount d else d.warps - evenCount d

/-- Key of warp i of a group on cores and slots (core × 16 + slot). -/
def wkOf (d : KDesc) (cores slots : List Nat) (i : Nat) : Nat :=
  let half := if i < evenCount d then 0 else 1
  let core := cores.getD half 0
  let j := i - halfStart d half
  let sl := slots.filter fun x => x / 16 == core
  core * 128 + sl.getD (j / perSlot d.width) 0 % 16 * 8 + j % perSlot d.width

/-- Warps that a group brings: index and extension blocks. One that starts brings every warp; a saved one brings those
that had not retired, with what they held. -/
def State.bringsOf (s : State) (gk : Nat) (d : KDesc) (frame : Option Nat) : List (Nat × Nat) :=
  match frame, kget s.groups gk with
  | some _, some g => g.snap.map fun e => (e.1, e.2.x)
  | _, _ => (List.range d.warps).map fun i => (i, d.regx)

/-- Descriptor of a group; supervisors have none. -/
def State.descOf (s : State) (gk : Nat) : Option KDesc := (kget s.grids (gkGrid gk)).map (·.desc)

/-- Lane-blocks that a group takes: core, quad, blocks. -/
def State.blocksTaken (s : State) (gk : Nat) (g : Group) : List (Nat × Nat × Nat) :=
  match g.phase, s.descOf gk with
  | .reserved f, some d =>
    (s.bringsOf gk d f).map fun x =>
      let wk := wkOf d g.cores g.slots x.1
      (wkCore wk, slotQuad (wkSlot wk), warpBlocks d.width x.2)
  | _, _ => g.wks.filterMap fun e => (kget s.warps e.2).map fun w => (wkCore e.2, slotQuad (wkSlot e.2), warpBlocks w.width w.x)

/-- Whether a group's room is reserved and its warps are not resident yet (10 R305). -/
def Group.awaited (g : Group) : Bool := g.phase.reservedRoom

/-- Lane-blocks of a quad that its resident warps hold, and those that are reserved for seam members (02 R40; 10 R305). -/
def State.quadUsed (s : State) (core quad : Nat) : Nat :=
  s.warps.foldl (fun n e => if wkCore e.1 == core && slotQuad (wkSlot e.1) == quad then n + warpBlocks e.2.width e.2.x else n) 0 +
    s.groups.foldl (fun n e => if e.2.awaited then
      (s.blocksTaken e.1 e.2).foldl (fun n b => if b.1 == core && b.2.1 == quad then n + b.2.2 else n) n else n) 0

end Sys2Proof.Machine
end

