-- ==== Sys2Proof/Machine/System.lean ====
section
/-! DEFINITION. The system class (07 R230 to R244; 02 R40 to R42): special values, CSRs, mailbox, register blocks,
seams, TFENCE and the privileged forms. -/

namespace Sys2Proof.Machine

open Host

/-! ### NOP and SREAD -/

/-- NOP (07 R231). -/
def execNop (s : State) : Res := agentOp .nop s (fun wk w c => doneWarp s wk w c) (fun m x c => doneMend s m x c)

/-- The latch of R42 after a read of selector 5, and the values of selectors 5 and 6 of a cycle count. -/
def cycleRead (sel cycles : Nat) (latch : Option Word) : Nat × Option Word :=
  if sel == 5 then (cycles % 2 ^ 32, some (BitVec.ofNat 32 (cycles / 2 ^ 32)))
  else (((latch.getD (BitVec.ofNat 32 (cycles / 2 ^ 32))).toNat), latch)

/-- Seam member index, or all ones (02 Table 2-4). -/
def State.memberIx (s : State) (gk : Nat) : Nat :=
  match s.seamOf gk with
  | some (_, i) => i
  | none => 2 ^ 32 - 1

/-- The scalar values of Table 2-4 that do not change by reading. -/
def State.special (s : State) (w : Warp) (sel : Nat) : Option Nat :=
  match sel with
  | 1 => some w.ix
  | 2 => some (gkIx w.gk)
  | 3 => some (ctxGrid (gkGrid w.gk))
  | 4 => some (s.memberIx w.gk)
  | 7 => some w.width
  | _ => none

/-- SREAD (02 R41, R42; 07 R231). -/
def execSread (d : VReg) (sel : BitVec 4) (s : State) : Res :=
  agentOp (.sread d sel) s
    (fun wk w c =>
      if sel == 0 then doneWarp s wk (w.putLanes false d.toNat (lanesOf c.act) fun l => l) c
      else if sel == 5 || sel == 6 then
        let r := cycleRead sel.toNat (s.core (wkCore wk)).cycles w.latch
        doneWarp s wk { w with s := rset w.s d.toNat (BitVec.ofNat 32 r.1), latch := r.2 } c
      else match s.special w sel.toNat with
        | some v => doneWarp s wk { w with s := rset w.s d.toNat (BitVec.ofNat 32 v) } c
        | none => trapRes s cOperand c.act)
    (fun m x c =>
      if sel == 5 || sel == 6 then
        let r := cycleRead sel.toNat x.cycles x.latch
        doneMend s m { x with s := rset x.s d.toNat (BitVec.ofNat 32 r.1), latch := r.2 } c
      else trapRes s cOperand)

/-! ### CSRs (07 R232 to R235, Table 7-9) -/

/-- DEVID (01 R20; 12 R354): FORM 0b01 on the HKZ-DK4-M. -/
def State.devid (s : State) : Word :=
  Config.devid (match s.mgmt.card with
    | some f => f.ctype == 1
    | none => false)

/-- Whether some instruction of the warp that may still set its flags is in its matrix queue (05 R144). -/
def State.flagWaits (s : State) (wk gk : Nat) : Bool :=
  (s.warpEnts wk gk).any fun e => match e.work with
    | .tld .. => true
    | .tcvt .. => true
    | .mma .. => true
    | _ => false

/-- A context-scope CSR. -/
def ctxCsr (g : Grid) (n : Nat) : Option Nat :=
  match n with
  | 0x010 => some g.ptroot.toNat
  | 0x011 => some g.foldbase.toNat
  | 0x012 => some g.savevec.toNat
  | _ => none

/-- Fields of FOLDBASE and MIGTGT that a write reaches (03 R81; 11 Table 11-15). -/
def foldbaseMask : Nat := packFields [(2 ^ 12 - 1, 12), (0, 4), (2 ^ 41 - 1, 41)]
def migtgtMask : Nat := packFields [(0, 16), (2 ^ 29 - 1, 29), (2 ^ 14 - 1, 14)]

/-- A context-scope CSR written. -/
def Grid.csrPut (g : Grid) (n x : Nat) : Grid :=
  match n with
  | 0x010 => { g with ptroot := BitVec.ofNat 64 (x &&& ptrootMask) }
  | 0x011 => { g with foldbase := BitVec.ofNat 64 (x &&& foldbaseMask) }
  | _ => { g with savevec := BitVec.ofNat 32 x }

/-- The context of the context-scope CSRs: a program warp's own, else the one CTXSEL names, if it is resident or saved. -/
def State.csrCtx (s : State) (wk : Nat) (w : Warp) : Option Nat :=
  if isSup wk then (if s.ctxLive w.ctxsel.toNat then some w.ctxsel.toNat else none) else some (gkGrid w.gk)

/-- A CSR as a warp reads it; none where the number does not exist for it. -/
def State.warpCsr (s : State) (wk : Nat) (w : Warp) (n : Nat) : Option Nat :=
  match n with
  | 0x000 => some s.devid.toNat
  | 0x001 => some w.aflags.toNat
  | 0x002 => some w.aenab.toNat
  | 0x003 => some Config.acap.toNat
  | 0x013 => some w.ctxsel.toNat
  | _ => ((s.csrCtx wk w).bind fun g => kget s.grids g).bind fun g => ctxCsr g n

/-- A CSR as a mending core reads it; DEMNEXT is DEMNEXT's own instruction. -/
def State.mendCsr (s : State) (x : Mend) (n : Nat) : Option Nat :=
  match n with
  | 0x000 => some s.devid.toNat
  | 0x001 => some x.aflags.toNat
  | 0x002 => some x.aenab.toNat
  | 0x003 => some Config.acap.toNat
  | 0x013 => some x.ctxsel.toNat
  | 0x020 => some x.dem.length
  | 0x022 => some 0
  | 0x023 => some x.migtgt.toNat
  | 0x024 => some 0
  | 0x025 => some (s.migStat x)
  | _ => if s.ctxLive x.ctxsel.toNat then (kget s.grids x.ctxsel.toNat).bind fun g => ctxCsr g n else none

/-- A 64-bit CSR. -/
def csrWide (n : Nat) : Bool := n == 0x010 || n == 0x011 || n == 0x023 || n == 0x024

/-- CSRs that a program warp may not write, or not read (04 R117; 07 Table 7-9). -/
def csrPriv (write : Bool) (n : Nat) : Bool :=
  n == 0x013 || (write && (n == 0x010 || n == 0x011 || n == 0x012))

/-- Runs a meaning in a warp only with privilege, where it needs one (04 R116 step 2). -/
def privWhen (need : Bool) (i : Instr) (s : State) (f : Nat → Warp → ClausePos → Res) (g : Nat → Mend → ClausePos → Res) : Res :=
  match s.ctl.cur with
  | some (.mend _) => mendOp i s g
  | _ => onWarp s fun wk _ c => if need && !isSup wk then trapRes s cPrivilege c.act else warpOp i s f

/-- The oldest posted record not yet returned (07 R235). -/
def Mend.nextDem (m : Mend) : Option Nat :=
  let l := m.dem.filter fun e => !e.2.ret
  match l with
  | [] => none
  | e :: r => some (r.foldl (fun a b => if b.2.seq < a.2.seq then b else a) e).1

/-- DEMNEXT on a mending core (07 R235, Table 7-11). -/
def demnextMend (s : State) (m : Nat) (x : Mend) (c : ClausePos) (d : Nat) : Res :=
  match x.nextDem with
  | none => doneMend s m { x with s := rset x.s d 0x8000FFFF } c
  | some t =>
    doneMend s m { x with s := rset x.s d (BitVec.ofNat 32 t), dem := kmod x.dem t fun r => { r with ret := true } } c

/-- CSRR (07 R233). -/
def execCsrr (d : SReg) (c : BitVec 11) (s : State) : Res :=
  privWhen (csrPriv false c.toNat) (.csrr d c) s
    (fun wk w p =>
      if c == 0x001 && s.flagWaits wk w.gk then waitRetry s
      else match s.warpCsr wk w c.toNat with
        | some v => doneWarp s wk { w with s := sput w.s (csrWide c.toNat) d.toNat v } p
        | none => trapRes s cOperand p.act)
    (fun m x p =>
      if c == 0x021 then demnextMend s m x p d.toNat
      else match s.mendCsr x c.toNat with
        | some v => doneMend s m { x with s := sput x.s (csrWide c.toNat) d.toNat v } p
        | none => trapRes s cOperand)

/-- DEMNEXT: CSRR of CSR 0x021, which exists on mending cores only (07 R232, R235). -/
def execDemnext (d : SReg) (s : State) : Res :=
  agentOp (.demnext d) s (fun _ _ p => trapRes s cOperand p.act) (fun m x p => demnextMend s m x p d.toNat)

/-- A CSRW of a warp, after its privilege: the state and the warp it leaves, or none for a CSR that does not exist. -/
def State.warpCsrw (s : State) (wk : Nat) (w : Warp) (n x : Nat) : Option (State × Warp) :=
  match n with
  | 0x000 => some (s, w)
  | 0x001 => some (s, { w with aflags := wr1c w.aflags (BitVec.ofNat 32 x) 6 })
  | 0x002 => some (s, { w with aenab := wrAenab (BitVec.ofNat 32 x) })
  | 0x003 => some (s, w)
  | 0x013 => some (s, { w with ctxsel := BitVec.ofNat 32 x })
  | 0x010 => (s.csrCtx wk w).map fun g => (s.modGrid g (·.csrPut n x), w)
  | 0x011 => (s.csrCtx wk w).map fun g => (s.modGrid g (·.csrPut n x), w)
  | 0x012 => (s.csrCtx wk w).map fun g => (s.modGrid g (·.csrPut n x), w)
  | _ => none

/-- A CSRW of a mending core: what it leaves of the core, and what it does to the device. -/
def State.mendCsrw (s : State) (m : Nat) (x : Mend) (n v : Nat) : Option (Mend × (State → State)) :=
  match n with
  | 0x000 => some (x, id)
  | 0x001 => some ({ x with aflags := wr1c x.aflags (BitVec.ofNat 32 v) 6 }, id)
  | 0x002 => some ({ x with aenab := wrAenab (BitVec.ofNat 32 v) }, id)
  | 0x003 => some (x, id)
  | 0x013 => some ({ x with ctxsel := BitVec.ofNat 32 v }, id)
  | 0x020 => some (x, id)
  | 0x021 => some (x, id)
  | 0x022 => some (x, fun s => s.demResp m (v % 2 ^ 16) (bitAt v 16) (bitsOf v 24 8))
  | 0x023 => some ({ x with migtgt := BitVec.ofNat 64 (v &&& migtgtMask) }, id)
  | 0x024 => some (x, fun s => s.migCtl m v)
  | 0x025 => some (x, id)
  | _ =>
    if (n == 0x010 || n == 0x011 || n == 0x012) && s.ctxLive x.ctxsel.toNat then
      some (x, fun s => s.modGrid x.ctxsel.toNat (·.csrPut n v))
    else none

/-- CSRW (07 R233; 05 R144). -/
def execCsrw (a : SReg) (c : BitVec 11) (s : State) : Res :=
  privWhen (csrPriv true c.toNat) (.csrw a c) s
    (fun wk w p =>
      if c == 0x001 && s.flagWaits wk w.gk then waitRetry s
      else match s.warpCsrw wk w c.toNat (sval w.s (csrWide c.toNat) a.toNat) with
        | some (s', w') => doneWarp s' wk w' p
        | none => trapRes s cOperand p.act)
    (fun m x p =>
      match s.mendCsrw m x c.toNat (sval x.s (csrWide c.toNat) a.toNat) with
      | some (x', f) => .next (f (s.setMend m (x'.advance p s.insnLen)))
      | none => trapRes s cOperand)

/-! ### Mailbox (07 R236 to R238) -/

/-- Status word of a message's sender (07 R237). -/
def senderStatus (wk : Nat) : Word :=
  BitVec.ofNat 32 (2 ^ 31 + wkCore wk * 2 ^ 16 + wkSlot wk * 2 ^ 12 + wkPos wk * 2 ^ 9)

/-- A message of warp ix of a group sets out; messages of one sender arrive in order (07 R236). -/
def State.send (s : State) (from_ gk ix core tgt : Nat) (status : Word) (words : List Word) (slot : Option Nat) : State :=
  { s with sends := s.sends ++ [{ from_ := from_, gk := gk, ix := ix, core := core, msg := { status := status, tgt := tgt, words := words }, slot := slot }] }

/-- MBX send (07 R236); it publishes the group (10 R309). A mending core has no mailbox, no blocks and no seam: what MBX, SVREQ,
XGROW, XDROP, SEAMJ and SEAMD do on one is the model's choice (log 107). -/
def execMbxSend (d a : SReg) (slot : Slot) (s : State) : Res :=
  agentOp (.mbxSend d a slot) s
    (fun wk w c =>
      let x := (rget w.s d.toNat).toNat
      if 2 ^ 15 ≤ x then trapRes s cOperand c.act
      else if slotFull w (slot.map (·.toNat)) then waitRetry s
      else
        let words := (List.range 16).map fun i => rget w.s (a.toNat + i)
        let s := (s.publish w).send wk w.gk w.ix (x % 256) (bitsOf x 8 4 * 8 + bitsOf x 12 3) (senderStatus wk) words (slot.map (·.toNat))
        doneWarp s wk (w.up (slot.map (·.toNat))) c)
    (fun _ _ _ => trapRes s cOperand)

/-- MBX receive (07 R237): the oldest message for the warp, its slot freed; the results land later, the status
last (log 110). On a mending core, log 107. -/
def execMbxRecv (d c : SReg) (slot : BitVec 3) (s : State) : Res :=
  agentOp (.mbxRecv d c slot) s
    (fun wk w p =>
      if slotFull w (some slot.toNat) then waitRetry s
      else
        let core := s.core (wkCore wk)
        let res := fun (i : Nat) (x : Word) => Elem.known (firstLane p) 4 i (x.setWidth 64)
        match core.mbox.find? fun m => m.tgt == wk % 128 with
        | none => issueOp s wk w p (s.warpAcc wk w p (.leaseRd 0) [res c.toNat 0] (some slot.toNat))
        | some m =>
          let es := ((List.range 16).zip m.words).map fun e => res (d.toNat + e.1) e.2
          let s := s.modCore (wkCore wk) fun k => { k with mbox := k.mbox.erase m }
          issueOp s wk w p (s.warpAcc wk w p (.leaseRd 0) (es ++ [res c.toNat m.status]) (some slot.toNat)))
    (fun _ _ _ => trapRes s cOperand)

/-- SVREQ (07 R238); it publishes the group (10 R309). On a mending core, log 107. -/
def execSvreq (a : SReg) (n : BitVec 11) (s : State) : Res :=
  agentOp (.svreq a n) s
    (fun wk w c =>
      let words := ((List.range 8).map fun i => rget w.s (a.toNat + i)) ++
        [BitVec.ofNat 32 n.toNat, BitVec.ofNat 32 (ctxGrid (gkGrid w.gk))] ++ List.replicate 6 0
      doneWarp ((s.publish w).send wk w.gk w.ix (wkCore wk) 120 (senderStatus wk) words none) wk w c)
    (fun _ _ _ => trapRes s cOperand)

/-! ### Register blocks (02 R40; 07 R239) -/

/-- Whether a request for blocks fits its quad. -/
def State.blocksFit (s : State) (core quad wk k : Nat) : Bool :=
  match kget s.warps wk with
  | some w => decide (s.quadUsed core quad + w.width * k ≤ Config.laneBlocks)
  | none => true

/-- A grant: the blocks are held, their registers read as zero; a non-blocking request sets GRANT (07 R239). -/
def Warp.granted (w : Warp) (k : Nat) (nb : Bool) : Warp :=
  let w := { w with x := w.x + k }
  if nb then { w.setPend 17 with xpend := 0 } else { w with park := .none }

/-- XGROW (07 R239; 02 R40). On a mending core, log 107. -/
def execXgrow (nb : Bool) (k : BitVec 3) (s : State) : Res :=
  agentOp (.xgrow nb k) s
    (fun wk w c =>
      if k == 0 || 6 < w.x + k.toNat || w.xpend != 0 then trapRes s cOperand c.act
      else
        let core := wkCore wk
        let quad := slotQuad (wkSlot wk)
        let first := (s.core core).xq.all fun r => r.quad != quad
        let w := w.advance c s.insnLen
        if first && s.blocksFit core quad wk k.toNat then .next (s.setWarp wk (w.granted k.toNat nb))
        else
          let w := if nb then { w with xpend := k.toNat } else { w with park := .xgrow k.toNat }
          .next ((s.setWarp wk w).modCore core fun x =>
            { x with xq := x.xq ++ [{ quad := quad, wk := wk, k := k.toNat, nb := nb }] }))
    (fun _ _ _ => trapRes s cOperand)

/-- A warp without its k highest extension blocks: their registers read as zero if they come back (02 R40). -/
def Warp.release (w : Warp) (k : Nat) : Warp :=
  let x := w.x - k
  { w with x := x, v := w.v.filter fun e => e.1 < (32 + 16 * x) * 128 }

/-- XDROP (07 R239): it waits for outstanding writes into the blocks. On a mending core, log 107. -/
def execXdrop (k : BitVec 3) (s : State) : Res :=
  agentOp (.xdrop k) s
    (fun wk w c =>
      if k == 0 || w.x < k.toNat || w.xpend != 0 then trapRes s cOperand c.act
      else
        let lo := 32 + 16 * (w.x - k.toNat)
        if s.regWait wk w [{ vec := true, first := lo, n := 16 * k.toNat, align := 1 }] then waitRetry s
        else doneWarp s wk (w.release k.toNat) c)
    (fun _ _ _ => trapRes s cOperand)

/-! ### Seams (07 R240; 02 R46, R47) -/

/-- SEAMJ. The manual does not say whether a warp that joins again after SEAMD still counts as detached for its member: the
model lets it address the seam window, and keeps it detached (log 90). On a mending core, log 107. -/
def execSeamj (s : State) : Res :=
  agentOp .seamj s
    (fun wk w c =>
      match s.seamOf w.gk with
      | none => trapRes s cOperand c.act
      | some _ =>
        let s := s.modGroup w.gk fun g => { g with joins := g.joins ||| BitVec.ofNat 256 (2 ^ w.ix) }
        doneWarp s wk { w with joined := true } c)
    (fun _ _ _ => trapRes s cOperand)

/-- Whether a side of an asynchronous operation is the seam window. -/
def AWork.seamSide : AWork → Bool
  | .row _ _ _ _ _ _ (.seam _) _ => true
  | .csct _ _ _ _ _ _ (.seam _) _ => true
  | .cred _ _ _ _ _ (.seam _) => true
  | .cpx r _ _ => bitsOf r 9 2 == 2 || bitsOf r 11 2 == 2
  | _ => false

/-- Seam-window accesses of a warp that are not applied (07 R240). -/
def State.seamPending (s : State) (wk : Nat) : Bool :=
  s.ops.any fun o => o.2.who == .warp wk && (match o.2.kind with
    | .async w _ _ _ _ _ => w.seamSide
    | .acc _ => o.2.seam && !o.2.allDone)

/-- SEAMD (07 R240). On a mending core, log 107. -/
def execSeamd (s : State) : Res :=
  agentOp .seamd s
    (fun wk w c =>
      if !w.joined then doneWarp s wk w c
      else if s.seamPending wk then waitRetry s
      else
        let bit := BitVec.ofNat 256 (2 ^ w.ix)
        let s := s.setWarp wk ({ w with joined := false }.advance c s.insnLen)
        let s := s.modGroup w.gk fun g => { g with joins := g.joins &&& ~~~bit, dets := g.dets ||| bit }
        .next (s.memberDetach w.gk))
    (fun _ _ _ => trapRes s cOperand)

/-! ### TFENCE (05 R145; 15 R391) -/

/-- DETAIL of ARITH_STICKY. -/
def stickyDetail (aflags aenab : Word) : Nat := aflags.toNat % 64 + 256 * (aenab.toNat % 64)

/-- TFENCE. -/
def execTfence (s : State) : Res :=
  agentOp .tfence s
    (fun wk w c =>
      if s.flagWaits wk w.gk then waitRetry s
      else if stickySet w.aflags w.aenab then trapRes s cSticky c.act 0 (stickyDetail w.aflags w.aenab)
      else doneWarp s wk w c)
    (fun m x c =>
      if stickySet x.aflags x.aenab then trapRes s cSticky 0 0 (stickyDetail x.aflags x.aenab) else doneMend s m x c)

/-! ### PGINV (07 R242; 03 R68) -/

/-- Whether an entry of a translation cache is one that PGINV drops. -/
def TlbEnt.covered (e : TlbEnt) (ctx : Nat) (va : Option Nat) : Bool :=
  e.ctx == ctx && (match va with
    | some v => e.va == v / pageBytes e.big
    | none => true)

/-- Whether the page of an address, of one of the two sides when it lies in a lined front region, meets a span. -/
def State.inSpan (s : State) (ctx va : Nat) (span : Option (Nat × Nat)) : Bool :=
  match span with
  | none => true
  | some (a, n) => [s.lined ctx va false, s.lined ctx va true].any fun v => decide (a ≤ v) && decide (v < a + n)

/-- Whether a place was reached by an entry of mode 0b01, 0b10 or 0b11. -/
def Place.byRemote : Place → Bool
  | .peer .. => true
  | .host .. => true
  | _ => false

/-- Requests under remote entries of a context that are not answered, sent or about to be sent: at a page of big or plain
size, or all (07 R242). -/
def State.sentUnder (s : State) (k ctx : Nat) (span : Option (Nat × Nat)) : Bool :=
  s.ops.any fun o => decide (o.1 < k) && o.2.ctx == ctx && o.2.elems.any fun e => !e.done &&
    (e.sent || (match e.place with
      | some p => p.byRemote
      | none => false)) && s.inSpan ctx e.va span

/-- The page that PGINV with FN 0 covers: 2 MiB where a dropped entry has that size. -/
def State.pginvSpan (s : State) (ctx va : Nat) : Nat × Nat :=
  let big := s.mem.tlb.any fun e => e.big && e.covered ctx (some va)
  (va / pageBytes big * pageBytes big, pageBytes big)

/-- Counters of pages of a context that PGINV covers and that its tables map no more start at zero again: the entry is being
rewritten by a migration (03 R70; 11 R338). -/
def State.dropCounts (s : State) (ctx : Nat) (va : Option Nat) : State :=
  let gone := fun (k : Nat) =>
    let big := k / 2 ^ 48 % 2 == 1
    let a := k % 2 ^ 48 * pageBytes big
    k / 2 ^ 49 == ctx && (match va with
      | some v => v / pageBytes big == k % 2 ^ 48
      | none => true) && s.walkCtx ctx a == .event 0 false
  { s with mem := { s.mem with counts := kfilter (fun k _ => !gone k) s.mem.counts } }

/-- The drop of cached translations. -/
def State.dropXlat (s : State) (ctx : Nat) (va : Option Nat) : State :=
  { s.dropCounts ctx va with mem := { (s.dropCounts ctx va).mem with tlb := s.mem.tlb.filter fun e => !e.covered ctx va, farEnts := [] } }

/-- PGINV in a context: the context is the one CTXSEL names (log 30). On a mending core the next instruction issues once it
has completed. -/
def pginv (i : Instr) (s : State) (va : Regs → Option Nat) (slot : Slot) : Res :=
  let sl := slot.map (·.toNat)
  privWhen true i s
    (fun wk w c =>
      if !s.ctxLive w.ctxsel.toNat then trapRes s cOperand c.act
      else if slotFull w sl then waitRetry s
      else
        let ctx := w.ctxsel.toNat
        let v := va w.s
        issueOp (s.dropXlat ctx v) wk w c (s.warpAcc wk w c (.pginv ctx (v.map fun a => s.pginvSpan ctx a)) [] sl))
    (fun m x c =>
      if !s.ctxLive x.ctxsel.toNat then trapRes s cOperand
      else
        let ctx := x.ctxsel.toNat
        let v := va x.s
        let o := s.mendAcc m x (.pginv ctx (v.map fun a => s.pginvSpan ctx a)) []
        .next (((s.dropXlat ctx v).setMend m (x.advance c s.insnLen)).addOp o))

/-- PGINV with FN 0. -/
def execPginvPage (a : SReg) (slot : Slot) (s : State) : Res :=
  pginv (.pginvPage a slot) s (fun r => some (sval r true a.toNat)) slot

/-- PGINV with FN 1. -/
def execPginvCtx (slot : Slot) (s : State) : Res := pginv (.pginvCtx slot) s (fun _ => none) slot

/-! ### LEASEOP (07 R243; 03 R78, R80; 16 R400 to R402) -/

/-- Sectors of a lease that the page cache holds. -/
def MemSys.leaseSecs (m : MemSys) (l : Nat) : List Nat := (m.secs.filter fun e => e.1 / 2 ^ 18 == l).map (·.1)

/-- Whether a pool request is a write-back, and the sector that it moves. -/
def PoolReq.isBack (r : PoolReq) : Bool := match r.work with
  | .wb _ _ => true
  | _ => false
def PoolReq.sector (r : PoolReq) : Nat := match r.work with
  | .wb k _ => k
  | .fill k => k
  | .publish _ _ => 0

/-- Write-backs to an extent without completion go to the node and extent that its record names now (16 R402). -/
def State.reissueWb (s : State) (l home : Nat) : State :=
  s.mem.preqs.foldl (fun s e => match e.2.work with
    | .wb k _ =>
      if k / 2 ^ 18 == l && poolHome e.2.addr == home then
        let p := s.poolPort (k * 4096)
        let r := s.stamped { e.2 with addr := s.mem.poolAddr (k * 4096), port := p.getD e.2.port, out := p.isSome && e.2.after.isNone,
                                      key := s.keyAt (k * 4096) }
        let s := { s with mem := { s.mem with preqs := kset s.mem.preqs e.1 r } }
        if r.out then s.poolEmit e.1 r else s
      else s
    | _ => s) s

/-- The outstanding write-back of a sector that came last, with its bytes. -/
def MemSys.lastBack (m : MemSys) (k : Nat) : Option (Nat × List Byte) :=
  (m.preqs.filterMap fun e => match e.2.work with
    | .wb j bs => if j == k then some (e.1, bs) else none
    | _ => none).getLast?

/-- The latest bytes of a dirty sector are to be home: by the write-back that is outstanding, else by one that follows it; one
that no port can carry waits for a port (16 R406). -/
def State.backOut (s : State) (k : Nat) : State :=
  let x := s.mem.sec k
  let bs := mread s.mem.bytes (k * 4096) 4096
  let last := s.mem.lastBack k
  if !x.valid || !x.dirty || x.lost || (last.map (·.2)) == some bs then s
  else
    let p := s.poolPort (k * 4096)
    let id := s.opNo
    let r := s.stamped { port := p.getD 0, addr := s.mem.poolAddr (k * 4096), work := .wb k bs, tries := 0,
                         out := p.isSome && last.isNone, key := s.keyAt (k * 4096), after := last.map (·.1) }
    let s := { s with mem := { s.mem with preqs := kset s.mem.preqs id r } }
    (if r.out then s.poolEmit id r else s).bumpOp

/-- What the record written means for the sectors of its extent (03 R80; 16 R400 to R402, R406). A release from Active writes the
dirty ones back, which stay until that completes, and frees the others; one from an ending state discards all, and from
Lost also what was to go to the lost node; a grant of a free index frees what is left of the extent before. -/
def State.leaseTurn (s : State) (l : Nat) (old : Lease) (new : Nat) : State :=
  let ks := s.mem.leaseSecs l
  let drop := fun (s : State) (ks : List Nat) => { s with mem := ks.foldl (fun m k => m.dropSector k) s.mem }
  let stop := fun (s : State) => { s with mem := { s.mem with preqs := kfilter (fun _ (r : PoolReq) => !(r.isBack && r.sector / 2 ^ 18 == l && poolHome r.addr == old.home)) s.mem.preqs } }
  if new == 0 && old.live then
    let s := ks.foldl (fun s k => s.backOut k) s
    drop s (ks.filter fun k => !(s.mem.sec k).dirty || (s.mem.sec k).lost)
  else if new == 0 && 3 ≤ old.st then drop (if old.st == 5 then stop s else s) ks
  else if old.st == 0 then drop s ks
  else s

/-- Every valid sector of pinned frames is to be written to a new home (16 R402). -/
def MemSys.allDirty (m : MemSys) (ks : List Nat) : MemSys :=
  ks.foldl (fun m k => if (m.sec k).valid then { m with secs := kset m.secs k { m.sec k with dirty := true } } else m) m

/-- After the record is written: an extent that lives again, or has a new home, has its dirty sectors written there, and the
write-backs that its old home did not answer; the reserve lease all its sectors (16 R400, R402, R405). -/
def State.leaseRevive (s : State) (l : Nat) (old : Lease) : State :=
  let r := s.lease l
  let moved := r.home != old.home || old.st == 5
  if !r.live || old.st == 0 || (old.live && !moved) then s
  else
    let ks := s.mem.leaseSecs l
    let s := if moved then s.reissueWb l old.home else s
    let s := if moved && r.reserve then { s with mem := s.mem.allDirty ks } else s
    ks.foldl (fun s k => s.sendBack k) s

/-- One more than the count of a mending core: the cycle in which something falls (03 R79, R80). -/
def State.cycleOf (s : State) (m : Nat) : Nat := match kget s.mends m with
  | some c => c.cycles + 1
  | none => 0

/-- A lease record changes its state, in a cycle of its owner. -/
def State.leaseTo (s : State) (l st : Nat) : State :=
  let r := s.lease l
  let r := { r.tgt st with ended := if 3 ≤ st then s.cycleOf r.owner else r.ended, tied := false }
  { s with mem := { s.mem with leases := kset s.mem.leases l r } }

/-- Whether a lease expires: it lives, its owner's count has reached EXPIRY, and no grant of the same cycle wins over the
expiry (03 R79, R80; log 91). -/
def State.leaseDue (s : State) (r : Lease) : Bool :=
  r.live && decide (r.expiry < s.cycleOf r.owner) && r.granted != s.cycleOf r.owner && !r.tied

/-- Whether a pool request is a publication. -/
def PoolReq.publishes (r : PoolReq) : Bool := match r.work with
  | .publish _ _ => true
  | _ => false

/-- A publication is held on reason 6: its tags (16 R402, R405, R411). -/
def State.holdPublish (s : State) (op page : Nat) : State × List Nat :=
  match kget s.ops op with
  | none => (s, [])
  | some o =>
    let mine := fun (e : Elem) => e.lane == 0 && e.reg == page && !e.done
    match o.elems.find? mine with
    | none => (s, [])
    | some e =>
      let (s, ts, ws) := s.postAll o.ctx (s.srcOf o.who o.ctx none) [{ reason := 6, kind := 1, va := e.va }]
      let es := o.elems.map fun e => if mine e = true then { e with swap := 0, data := 1 } else e
      ({ s with ops := kset s.ops op { o with hold := o.hold ++ ts, want := o.want ++ ws, elems := es } }, ts)

/-- A lease is Lost: what is in flight to its node stops. Reads are asked again by what waits for them, publications are held,
write-backs wait for a new home (16 R402). -/
def State.loseLease (s : State) (l : Nat) : State :=
  if (s.lease l).st == 0 then s
  else
    let h := (s.lease l).home
    let s := s.leaseTo l 5
    let there := fun (r : PoolReq) => poolHome r.addr == h
    let pubs := s.mem.preqs.filter fun e => there e.2 && e.2.publishes
    let s := { s with mem := { s.mem with preqs := (kfilter (fun _ (r : PoolReq) => !there r || r.isBack) s.mem.preqs).map fun e => if there e.2 then (e.1, { e.2 with out := false }) else e } }
    pubs.foldl (fun s e => match e.2.work with
      | .publish op page => (s.holdPublish op page).1
      | _ => s) s

/-- An event of the cycle in which a record is written applies after it, to the state written: the loss of its node, a
revocation, its expiry (07 R243; 03 R80). -/
def State.leaseSame (s : State) (l : Nat) : State :=
  let r := s.lease l
  let now := s.cycleOf r.owner
  let at_ := fun (m : KV Nat) (n : Nat) => kget m (4 * n + r.owner) == some now
  let turned : Option Nat := match kget s.mem.dir l with
    | some d => if at_ s.mem.dirAt l && d.node.toNat == r.node && d.extent.toNat == r.extent then some d.dstate.toNat else none
    | none => none
  if r.st == 0 then s
  else if at_ s.mem.lossAt r.node || turned == some 3 || (turned == some 2 && r.live && r.reserve) then s.loseLease l
  else if turned == some 2 && r.live then s.leaseTo l 4
  else if s.leaseDue r then s.leaseTo l 3
  else s

/-- A lease record written in one step; a STATE of 6 or 7 is stored as 0. A grant wins over an expiry of its cycle (03 R80). -/
def State.leaseWrite (s : State) (l : Nat) (bits : BitVec 128) : State :=
  let old := s.lease l
  let r0 : Lease := { bits := bits, last := old.last, ended := old.ended }
  let new := if 6 ≤ r0.st then 0 else r0.st
  let r := { r0.tgt new with granted := if new == 1 then s.cycleOf r0.owner else 0 }
  let s := s.leaseTurn l old new
  (({ s with mem := { s.mem with leases := kset s.mem.leases l r } }).leaseRevive l old).leaseSame l

/-- The leases that a mending core times expire as its count reaches their EXPIRY (03 R80). -/
def State.expireLeases (s : State) (m : Nat) : State :=
  s.mem.leases.foldl (fun s e => if e.2.owner == m && s.leaseDue e.2 then s.leaseTo e.1 3 else s) s

/-- Four scalars as a record, whose bits 118:114 are read-only zeros; and back. -/
def recOf (r : Regs) (b : Nat) : BitVec 128 :=
  BitVec.ofNat 128 (packFields ((List.range 4).map fun i => ((rget r (b + i)).toNat, 32))) &&& ~~~(0x1F#128 <<< 114)

def recWord (x : BitVec 128) (i : Nat) : Word := BitVec.ofNat 32 (x.toNat / 2 ^ (32 * i))

/-- LEASEOP read. -/
def execLeaseopRd (d a : SReg) (slot : BitVec 3) (s : State) : Res :=
  privWhen true (.leaseopRd d a slot) s
    (fun wk w c =>
      let l := (rget w.s a.toNat).toNat
      if Config.leases ≤ l then trapRes s cOperand c.act
      else if slotFull w (some slot.toNat) then waitRetry s
      else
        let es := (List.range 4).map fun i => Elem.known (firstLane c) 4 (d.toNat + i) ((recWord (s.lease l).bits i).setWidth 64)
        issueOp s wk w c (s.warpAcc wk w c (.leaseRd l) es (some slot.toNat)))
    (fun m x c =>
      let l := (rget x.s a.toNat).toNat
      if Config.leases ≤ l then trapRes s cOperand
      else doneMend s m { x with s := (List.range 4).foldl (fun r i => rset r (d.toNat + i) (recWord (s.lease l).bits i)) x.s } c)

/-- LEASEOP write (07 R243): its slot is optional, and falls when the record is written (log 112). -/
def execLeaseopWr (a b : SReg) (slot : Slot) (s : State) : Res :=
  privWhen true (.leaseopWr a b slot) s
    (fun wk w c =>
      let l := (rget w.s a.toNat).toNat
      if Config.leases ≤ l then trapRes s cOperand c.act
      else if slotFull w (slot.map (·.toNat)) then waitRetry s
      else issueOp (s.leaseWrite l (recOf w.s b.toNat)) wk w c (s.warpAcc wk w c .leaseWr [] (slot.map (·.toNat))))
    (fun m x c =>
      let l := (rget x.s a.toNat).toNat
      if Config.leases ≤ l then trapRes s cOperand
      else .next ((s.setMend m (x.advance c s.insnLen)).leaseWrite l (recOf x.s b.toNat)))

/-- HALT (07 R244): the core stops at its next instruction. -/
def execHalt (s : State) : Res :=
  privWhen true .halt s (fun _ _ c => trapRes s cOperand c.act)
    (fun m x c => .next (s.setMend m { x.advance c s.insnLen with halted := true }))

end Sys2Proof.Machine
end

