-- ==== Sys2Proof/Machine/Async.lean ====
section
/-! DEFINITION. The asynchronous class (07 R208 to R229): operations that copy engines carry out element by element
(R213 to R221; 08 R258), batches (R209 to R212), linings and TURN (R222 to R226), folds (R227, R228), landing windows
(R229). -/

namespace Sys2Proof.Machine

open Host

/-! ### Layout records (07 Table 7-6) -/

def layEsz (r : Nat) : Nat := 2 ^ bitsOf r 5 2
def layNdim (r : Nat) : Nat := bitsOf r 7 2
def laySkind (r : Nat) : Nat := bitsOf r 9 2
def layDkind (r : Nat) : Nat := bitsOf r 11 2
def layOob (r : Nat) : Bool := bitAt r 13
def laySwz (r : Nat) : Nat := bitsOf r 14 2
def laySbase (r : Nat) : Nat := bitsOf r 64 64
def layDbase (r : Nat) : Nat := bitsOf r 128 64
/-- Box extent of a dimension: 1 above NDIM, and 0 counts as 1. -/
def layBox (r d : Nat) : Nat := if layNdim r < d then 1 else max 1 (bitsOf r (192 + 16 * d) 16)
/-- Tensor extent of a dimension, 0 for unbounded. -/
def laySext (r d : Nat) : Nat := if layNdim r < d then 0 else bitsOf r (256 + 16 * d) 16
def laySstride (r d : Nat) : Int := if layNdim r < d then 0 else sextNat 32 (bitsOf r (288 + 32 * d) 32)
def layDstride (r d : Nat) : Int := if layNdim r < d then 0 else sextNat 32 (bitsOf r (384 + 32 * d) 32)

/-- Elements of a box. -/
def layCount (r : Nat) : Nat := layBox r 0 * layBox r 1 * layBox r 2 * layBox r 3

/-- The record check of R215. -/
def layOk (r : Nat) : Bool :=
  let e := layEsz r
  bitsOf r 16 48 == 0 && bitsOf r 0 5 == 0 && laySkind r != 3 && layDkind r != 3 &&
    laySbase r % e == 0 && layDbase r % e == 0 &&
    ([1, 2, 3].all fun d => laySstride r d % e == 0 && layDstride r d % e == 0) && decide (layCount r * e ≤ 2 ^ 26)

/-- Index of element k of a box in a dimension. -/
def layIx (r k d : Nat) : Nat :=
  match d with
  | 0 => k % layBox r 0
  | 1 => k / layBox r 0 % layBox r 1
  | 2 => k / (layBox r 0 * layBox r 1) % layBox r 2
  | _ => k / (layBox r 0 * layBox r 1 * layBox r 2)

/-- Whether element k lies outside SEXT in some dimension. -/
def layOut (r : Nat) (c : List Int) (k : Nat) : Bool :=
  (List.range 4).any fun d =>
    let j := c.getD d 0 + layIx r k d
    laySext r d != 0 && (decide (j < 0) || decide ((laySext r d : Int) ≤ j))

/-- Whether some element of the box lies outside SEXT. -/
def layAnyOut (r : Nat) (c : List Int) : Bool :=
  (List.range 4).any fun d =>
    laySext r d != 0 && (decide (c.getD d 0 < 0) || decide ((laySext r d : Int) < c.getD d 0 + layBox r d))

/-- An address that a sum of a layout record gives, exactly: a sum below 0 is one past the top of every space, whose low 64 bits
are those of the sum (07 R215; 00 R7; log 74). -/
def exactAddr (x : Int) : Nat := if x < 0 then 2 ^ 64 + wrapInt 64 x else x.toNat

/-- Source address of element k. -/
def laySrc (r : Nat) (c : List Int) (k : Nat) : Nat :=
  let j := fun (d : Nat) => c.getD d 0 + (layIx r k d : Int)
  exactAddr (laySbase r + j 0 * layEsz r + j 1 * laySstride r 1 + j 2 * laySstride r 2 + j 3 * laySstride r 3)

/-- Destination address of element k. -/
def layDst (r disp k : Nat) : Nat :=
  let i := fun (d : Nat) => (layIx r k d : Int)
  exactAddr (layDbase r + disp + i 0 * layEsz r + i 1 * layDstride r 1 + i 2 * layDstride r 2 + i 3 * layDstride r 3)

/-- A side of a kind under a swizzle mode. -/
def sideOf (kind swz : Nat) : Side := match kind with
  | 0 => .dv
  | 1 => .scr swz
  | _ => .seam swz

/-! ### Units of an operation -/

/-- One k of an operation: bytes, where they come from (none for zeros) and where they go (none for an index). -/
structure Piece where
  len : Nat
  src : Option (Side × Nat)
  dst : Option (Side × Nat)
  deriving DecidableEq, Repr

/-- Number of ks. -/
def AWork.total : AWork → Nat
  | .cpx r _ _ => layCount r
  | .idx _ n _ => n
  | .row _ _ _ _ n _ _ _ => n
  | .csct _ _ _ _ n _ _ _ => n
  | .cred _ _ n _ _ _ => n
  | .copy _ _ n => n / 16
  | .turn _ _ _ _ n => n
  | .word .. => 1
  | .lnopen => 0

/-- An index as a signed or unsigned number, none for all ones (07 R218). -/
def indexVal (ty : Nat) (x : DWord) : Option Int :=
  let n := 8 * esize ty
  if x.toNat % 2 ^ n == 2 ^ n - 1 then none else some (ival (tySigned ty) n x.toNat)

/-- The k-th piece of an operation; vals are the indices of its buffer. -/
def AWork.piece (w : AWork) (vals : List DWord) (k : Nat) : Piece :=
  match w with
  | .cpx r disp c =>
    { len := layEsz r, src := if layOut r c k then none else some (sideOf (laySkind r) (laySwz r), laySrc r c k),
      dst := some (sideOf (layDkind r) (laySwz r), layDst r disp k) }
  | .idx a _ ty => { len := esize ty, src := some (.dv, a + k * esize ty), dst := none }
  | .row d b r st _ ty kind _ =>
    match indexVal ty (vals.getD k 0) with
    | none => { len := r, src := none, dst := some (kind, d + k * r) }
    | some x => { len := r, src := some (.dv, wrapInt 64 (b + x * st)), dst := some (kind, d + k * r) }
  | .csct d b r st _ ty kind _ =>
    match indexVal ty (vals.getD k 0) with
    | none => { len := 0, src := none, dst := none }
    | some x => { len := r, src := some (kind, b + k * r), dst := some (.dv, wrapInt 64 (d + x * st)) }
  | .cred d b _ ty _ kind => { len := esize ty, src := some (kind, b + k * esize ty), dst := some (.dv, d + k * esize ty) }
  | .copy d b _ => { len := 16, src := some (.dv, b + 16 * k), dst := some (.dv, d + 16 * k) }
  | .word a _ _ => { len := 8, src := none, dst := some (.dv, a) }
  | _ => { len := 0, src := none, dst := none }

/-- Bytes of a range in aligned parts of at most 8 bytes: address and length. -/
def alignedParts : Nat → Nat → Nat → List (Nat × Nat)
  | 0, _, _ => []
  | fuel + 1, a, n => if n == 0 then [] else
      let m := min n (8 - a % 8)
      (a, m) :: alignedParts fuel (a + m) (n - m)

/-- The elements in which a range of bytes is read or written: an element of at most 8 bytes at one instant, in two where it
crosses a 128-byte block; longer ranges in aligned parts (08 R246, R258; 03 R74). -/
def partsOf (a n : Nat) : List (Nat × Nat) :=
  if 8 < n then alignedParts n a n
  else if a % 128 + n ≤ 128 then [(a, n)] else [(a, 128 - a % 128), (a + (128 - a % 128), n - (128 - a % 128))]

/-- Elements of one k of an operation over a range of addresses, dir 1 for a write, with their data. -/
def unitElems (k dir a n : Nat) (bs : List Byte) : List Elem :=
  (partsOf a n).map fun p => { Elem.virt dir p.1 p.2 (BitVec.ofNat 64 (leNat ((bs.drop (p.1 - a)).take p.2))) 0 k with va := p.1 }

/-! ### One access of an engine -/

/-- Index buffer of an operation. -/
def AWork.buf : AWork → Option Nat
  | .row _ _ _ _ _ _ _ b => some b
  | .csct _ _ _ _ _ _ _ b => some b
  | _ => none

/-- Indices of the buffer that an operation uses; none until they are read. -/
def State.bufVals (s : State) (o : Op) (w : AWork) : Option (List DWord) :=
  match w.buf with
  | none => some []
  | some b => match o.who with
    | .warp wk => (kget s.warps wk).bind fun x => (x.ibufs.find? fun i => i.op == b && i.full).map (·.vals)
    | _ => none

/-- Check of an address of a side (07 R215, R224): kind and direction for device virtual space. -/
def State.sideCheck (s : State) (o : Op) (side : Side) (kind : Nat) (wr : Bool) (a : Nat) : Chk ⊕ Nat :=
  match side with
  | .dv => .inl (s.check o.ctx kind wr a)
  | .scr z => .inl (.ok (.scr o.gk a z) 0 false)
  | .seam z =>
    match s.seamOf o.gk with
    | none => .inr 0
    | some (r, _) =>
      let i := a / 2 ^ 20
      let gone : Bool := match kget s.seams r.id with
        | some m => m.gones.getLsbD i
        | none => true
      let peer := r.peers.getD i 0
      if gone then .inr peer
      else match (kget s.seams r.id).bind fun m => (m.locals.find? fun e => e.1 == i).map (·.2) with
        | some gk => .inl (.ok (.scr gk (a % 2 ^ 20) z) 0 false)
        | none => .inl (.ok (.seam peer r.id a z) 0 false)

/-- Kind of the accesses of an operation in demand records (03 R76). -/
def AWork.kindCode (w : AWork) (wr : Bool) : Nat :=
  if !wr then 6
  else match w with
    | .cred .. => 2
    | .word _ _ true => 2
    | _ => 7

/-- What an engine's access is to a peer or the host. -/
def AWork.asAcc (w : AWork) (wr : Bool) : OpKind :=
  if !wr then .acc (.load false 7 false)
  else match w with
    | .word _ _ true => .acc (.atom 0 7 true false 0 5)
    | _ => .acc .store

/-- The write of an engine at a local home: a store, or a step of CRED or of a completion-word add. -/
def State.engineWrite (s : State) (w : AWork) (p : Place) (e : Elem) : State :=
  match w with
  | .cred _ _ _ ty fn _ => s.placeWr p e.n (atomNew fn ty (s.placeRd p e.n) e.data.toNat 0)
  | .word _ _ true => s.placeWr p 8 (atomNew 0 7 (s.placeRd p 8) e.data.toNat 0)
  | _ => s.placeWr p e.n e.data.toNat

/-- A write outside a lined front region, or to another member, publishes the group (10 R309). -/
def State.enginePublish (s : State) (o : Op) (side : Side) (a : Nat) : State :=
  let pub := match side with
    | .dv => !s.inFront o.ctx a
    | .scr _ => false
    | .seam _ => true
  if pub && o.gk != 0 then s.modGroup o.gk fun g => { g with pub := true } else s

/-- Whether an access of an engine to the host or a peer is turned away before it leaves (11 R326; 17 R421, R424). -/
def State.engineRefused (s : State) (o : Op) (w : AWork) (wr : Bool) (p : Place) : Option (Nat × Nat) :=
  match w, wr with
  | .cred _ _ _ ty fn _, true => s.refusedAt { o with kind := .acc (.atom fn ty true false 0 5) } p
  | _, _ => s.refusedAt { o with kind := w.asAcc wr } p

/-- An engine's access meets a demand event: it is posted, and the operation stops at its k (07 R219). -/
def State.engineEvent (s : State) (k : Nat) (o : Op) (engine : Nat) (x : Wish) : State :=
  let (s, ts, ws) := s.postAll o.ctx (s.srcOf o.who o.ctx (some engine)) [x]
  { s with ops := kmod s.ops k fun o => { o with hold := ts, want := ws } }

/-- Whether a state has gone on from another in what a home asks for: requests, notes of lost sectors, messages. -/
def State.moved (t s : State) : Bool :=
  t.ctl.nextOp != s.ctl.nextOp || t.mem.heldAt.length != s.mem.heldAt.length || t.ctl.out.length != s.ctl.out.length

/-- A state that waits, when anything is new in it. -/
def State.waits (t s : State) : Option State := if t.moved s then some t else none

/-- An element of an engine's access is translated and checked (07 R215, R219; 15 R386), counted once (07 R219), and has its
place. None when nothing happens. -/
def State.engineTrans (s : State) (x : Nat) (o : Op) (w : AWork) (engine i : Nat) (side : Side) (e : Elem) : Option State :=
  let wr := e.lane == 1
  let line := w.lines && wr
  let dv := side == .dv
  match if dv then s.walkGate o.ctx [s.lined o.ctx e.va line] else (s, true) with
  | (t, false) => t.waits s
  | (_, true) =>
    match s.sideCheck o side (w.kindCode wr) line e.va with
    | .inr peer => some (s.failOp x o cDeparted peer e.va o.progress 0)
    | .inl .prot => some (if o.midWrite e then s.loseElems x (· == e) else s.failOp x o cProtection 0 e.va o.progress 0)
    | .inl (.event y) => some (s.engineEvent x o engine y)
    | .inl (.ok p l big) =>
      match s.engineRefused o w wr p with
      | some (cause, detail) => some (s.failOp x o cause detail e.va o.progress 0)
      | none =>
        let va := s.lined o.ctx e.va line
        let host := match p with
          | .host _ _ => true
          | _ => false
        let first := !o.elems.any fun y => y.reg == e.reg && y.lane == e.lane && y.swap == 1 && y.va / 65536 == e.va / 65536
        let s := if dv && !host && first then s.countReq o.ctx (w.kindCode wr) va (s.srcOf o.who o.ctx (some engine)) l big else s
        let s := if dv then s.keepXlat o.ctx va (.leaf l big) else s
        let s := if wr then s.enginePublish o side e.va else s
        some (s.setElem x i { e with place := some p, swap := 1 })

/-- The operation as an access of its engine to a peer or to the host. -/
def Op.asSent (o : Op) (w : AWork) (wr host : Bool) : Op :=
  match w, wr, host with
  | .cred _ _ _ ty fn _, true, true => { o with kind := .acc (.atom fn ty true false 0 5) }
  | .cred .., true, false => o
  | _, _, _ => { o with kind := w.asAcc wr }

/-- Elements of one k that go to peers or to the host are sent, in requests of at most 128 bytes (03 R74); a host-homed write
while the link is down is dropped, logged, and marks the group (17 R424). -/
def State.engineSend (s : State) (x : Nat) (o : Op) (w : AWork) (wr : Bool) (xs : List (Nat × Elem)) : State :=
  let isHost := fun (y : Nat × Elem) => y.2.toHost
  let p := o.asSent w wr false
  let h := o.asSent w wr true
  let s := (blocksOf p.isAtom (xs.filter fun y => !isHost y)).foldl (fun s g => s.sendBlock x p g) s
  let hs := xs.filter isHost
  if wr && !h.isAtom && !s.host.up then (hostBlocks h hs).foldl (fun s g => s.loseHost x o g) s
  else (hostBlocks h hs).foldl (fun s g => s.sendHost x h g) s

/-- An element of an engine's access is performed at its home of this device; of a pressed page, with the other elements of its
128-byte block (03 R85). -/
def State.engineDo (s : State) (x : Nat) (o : Op) (w : AWork) (wr : Bool) (i : Nat) (e : Elem) (p : Place) : State :=
  if wr then (s.engineWrite w p e).setElem x i { e with done := true }
  else
    let is : List (Nat × Elem) := match p with
      | .loc a .pressed => ((List.range o.elems.length).zip o.elems).filter fun (y : Nat × Elem) => y.2.reg == e.reg && y.2.lane == 0 && !y.2.done &&
          (match y.2.place with
           | some (.loc b .pressed) => a / 128 == b / 128
           | _ => false)
      | _ => [(i, e)]
    is.foldl (fun s y =>
      let v := s.placeRd ((y.2.place.map s.homePlace).getD p) y.2.n
      s.setElem x y.1 { y.2 with got := some (BitVec.ofNat 64 v), done := true }) s

/-- One attempt at an element that has its place at a home of this device: a write in the front region of a lining finds its
side again (08 R259), a page under a forward leads to its new home (11 R338), an ended lease to a demand event (16 R403). The
writes of a k begin once every home of it is ready (15 R386). None when nothing happens. -/
def State.engineLocal (s : State) (x : Nat) (o : Op) (w : AWork) (side : Side) (mine : List (Nat × Elem)) (i : Nat) (e : Elem) (p : Place) : Option State :=
  let wr := e.lane == 1
  let begun := wr && mine.any fun y => y.2.done
  let again := some (s.setElem x i { e with place := none })
  let stale := wr && w.lines && side == .dv && s.inFront o.ctx e.va && (match s.check o.ctx (w.kindCode wr) true e.va with
    | .ok q _ _ => e.place != some q
    | _ => !begun)
  if stale then again
  else
    let go : Option State :=
      let ps := if wr && !begun then mine.filterMap fun y => if y.2.done then none else y.2.place.map s.homePlace else [p]
      match s.gateAll x ps with
      | (t, false) => t.waits s
      | (t, true) => some (t.engineDo x o w wr i e p)
    match p with
    | .loc a _ =>
      match s.mem.forward a with
      | some f =>
        if s.fab.anyUp then some (s.setElem x i { e with place := some (.peer f.peer (f.topg * 65536 + a % 65536) false false) })
        else some (s.failOp x o cPlane f.peer e.va o.progress 0)
      | none =>
        match leaseReason (s.mem.leaseAt a) with
        | some _ => again
        | none => go
    | _ => go

/-! ### Steps of an operation -/

/-- Index k enters the buffer of its step (07 R217). -/
def State.putIndex (s : State) (o : Op) (op : Nat) (v : DWord) : State :=
  match o.who with
  | .warp wk => s.modWarp wk fun w => { w with ibufs := w.ibufs.map fun b =>
      if b.op == op then { b with vals := b.vals ++ [v], full := b.n ≤ b.vals.length + 1 } else b }
  | _ => s

/-- An operation is complete (07 R209): it leaves, its slot falls, and its warp may retire. -/
def State.asyncDone (s : State) (k : Nat) (o : Op) : State :=
  let s := { s with ops := kdel s.ops k }
  match o.who with
  | .warp wk => (s.modWarp wk fun w => w.down o.slot).tryRetire wk
  | .queue _ => s.packetDone k
  | _ => s

/-- Whether an operation proceeds in ascending k; the elements of a CPX move in no defined order (07 R215, R219; 08 R258). Those
of a COPY that fails are the ones before its k (15 R395; log 97). -/
def AWork.ordered : AWork → Bool
  | .cpx .. => false
  | _ => true

/-- The first k at or after k that is not among those moved ahead. -/
def skipAhead (ahead : List Nat) : Nat → Nat → Nat
  | 0, k => k
  | fuel + 1, k => if ahead.contains k then skipAhead ahead fuel (k + 1) else k

/-- A k of an operation is moved. -/
def Op.unitDone (o : Op) (k : Nat) : Op :=
  match o.kind with
  | .async w k0 ahead us engine batch =>
    let ahead := k :: ahead
    let k1 := skipAhead ahead (ahead.length + 1) k0
    let us := us.filter fun u => u.k != k
    let out := o.elems.any fun e => e.sent && !e.done
    { o with kind := .async w k1 (ahead.filter fun j => decide (k1 ≤ j)) us engine batch,
             elems := if out then o.elems else o.elems.filter fun e => us.any fun u => u.k == e.reg }
  | .acc _ => o

/-- A k that is under way, changed. -/
def Op.unitSet (o : Op) (u : AUnit) (es : List Elem) : Op :=
  match o.kind with
  | .async w k ahead us engine batch =>
    { o with kind := .async w k ahead (us.filter (fun v => v.k != u.k) ++ [u]) engine batch, elems := o.elems ++ es }
  | .acc _ => o

/-- The bytes of a k have been read: an index enters its buffer, else they are to be written. -/
def State.unitRead (s : State) (x : Nat) (o : Op) (p : Piece) (k : Nat) (bs : List Byte) : State :=
  match p.dst with
  | none => { s.putIndex o x (BitVec.ofNat 64 (leNat bs)) with ops := kset s.ops x (o.unitDone k) }
  | some (_, a) => { s with ops := kset s.ops x (o.unitSet { k := k, got := some bs } (unitElems k 1 a p.len bs)) }

/-- A k starts: its source is read, or is zeros or the word to be written. -/
def State.unitStart (s : State) (x : Nat) (o : Op) (w : AWork) (p : Piece) (k : Nat) : State :=
  if p.len == 0 then { s with ops := kset s.ops x (o.unitDone k) }
  else match p.src with
    | none => s.unitRead x o p k (match w with
        | .word _ v _ => leBytes 8 v.toNat
        | _ => List.replicate p.len 0)
    | some (_, a) => { s with ops := kset s.ops x (o.unitSet { k := k, got := none } (unitElems k 0 a p.len [])) }

/-- A k goes on by one action: an element is translated; elements at other devices are sent; one at home is performed; or the
k comes to its end. All are translated before one is read or written (15 R386), and those that a device may refuse come
first. None when nothing happens. -/
def State.unitStep (s : State) (x : Nat) (o : Op) (w : AWork) (vals : List DWord) (engine : Nat) (u : AUnit) : Option State :=
  let p := w.piece vals u.k
  let wr := u.got.isSome
  let side := ((if wr then p.dst else p.src).map (·.1)).getD .dv
  let mine := ((List.range o.elems.length).zip o.elems).filter fun y => y.2.reg == u.k && y.2.lane == wr.toNat
  match mine.find? fun y => !y.2.done && y.2.place == none with
  | some (i, e) => s.engineTrans x o w engine i side e
  | none =>
    let far := mine.filter fun y => !y.2.done && !y.2.sent && (match y.2.place.map s.homePlace with
      | some (.peer ..) => true
      | some (.seam ..) => true
      | some (.host _ _) => true
      | _ => false)
    if !far.isEmpty then
      match if s.host.up || (wr && !(o.asSent w wr true).isAtom) then none else far.find? fun y => y.2.toHost with
      | some (_, e) => some (s.failOp x o cHostDown 0 e.va o.progress 0)
      | none =>
      let t := s.engineSend x o w wr far
      if t.moved s || t.host.buf.length != s.host.buf.length || t.fab.held.length != s.fab.held.length || !s.host.up then some t else none
    else if mine.all fun y => y.2.done then
      some (if wr then { s with ops := kset s.ops x (o.unitDone u.k) }
        else s.unitRead x o p u.k (mine.flatMap fun y => leBytes y.2.n (y.2.got.getD 0).toNat))
    else
      let near := mine.filter fun y => !y.2.done && !y.2.sent
      if wr && mine.any (fun y => y.2.sent && !y.2.done) then none
      else match near[s.choice / 2 ^ 42 % max 1 near.length]? with
        | none => none
        | some (i, e) => match e.place.map s.homePlace with
          | none => none
          | some q => s.engineLocal x o w side mine i e q

/-- A step of an operation that engines carry out; none when it waits. The lowest k comes first, but in an operation without
a defined order the choice of the step may take another. -/
def State.pieceStep (s : State) (x : Nat) (o : Op) (w : AWork) (k : Nat) (ahead : List Nat) (us : List AUnit) (engine : Nat) : Option State :=
  match s.bufVals o w with
  | none => none
  | some vals =>
    let start := fun (j : Nat) => s.unitStart x o w (w.piece vals j) j
    let free := fun (j : Nat) => decide (k ≤ j) && decide (j < w.total) && !ahead.contains j && !us.any fun u => u.k == j
    let pick := s.choice / 4 % 2 ^ 40 % (us.length + (w.total - k) + 1)
    let other : Option State :=
      if w.ordered || pick == 0 then none
      else match us[pick - 1]? with
        | some u => s.unitStep x o w vals engine u
        | none => if free (k + (pick - 1 - us.length)) then some (start (k + (pick - 1 - us.length))) else none
    match other with
    | some t => some t
    | none =>
      if us.isEmpty then (if w.total ≤ k then some (s.asyncDone x o) else some (start k))
      else us.findSome? fun u => s.unitStep x o w vals engine u

/-! ### Linings (07 R222 to R226; 08 R259) -/

/-- The bytes of a record at its home. -/
def State.putRecord (s : State) (carve : Bool) (home : Nat) (bs : List Byte) : State :=
  if carve then { s with mem := { s.mem with carve := mwrite s.mem.carve home bs } }
  else { s with mem := s.mem.poke home bs }

/-- The lining whose record stands at a home: its grid, key and fields. -/
def State.liningAt (s : State) (carve : Bool) (home : Nat) : Option (Nat × Nat × Lining) :=
  s.grids.findSome? fun g => (g.2.linings.find? fun l => l.2.carve == carve && l.2.home == home).map fun l => (g.1, l.1, l.2)

/-- Two page ranges that overlap. -/
def overlap (a n b m : Nat) : Bool := decide (a < b + m) && decide (b < a + n)

/-- Sectors and L1 lines of a pressed page leave: the sectors at once, the lines at the next acquire point (03 R85). -/
def State.dropPressed (s : State) (page : Nat) : State :=
  let m := (pageSectors (page * 65536)).foldl (fun (m : MemSys) k => m.dropSector k) s.mem
  { s with mem := m, cores := kmap (fun _ (c : Core) => { c with l1 := kmap (fun key (q : L1Sec) =>
      if key / 2048 == page && q.kind == .pressed then { q with marked := true } else q) c.l1 }) s.cores }

/-! A record's home is in local memory or the carve. Where its page is under a forward, the 64 bytes go to the page's new home as
a store, and the instruction that writes them is complete when they are there (07 R222; 11 R338; log 92). -/

/-- The forward of a record's page. -/
def State.recForward (s : State) (carve : Bool) (home : Nat) : Option Forward := if carve then none else s.mem.forward home

/-- Whether a record's home is ready, as an access k finds it; what it waits for has been asked for. -/
def State.recGate (s : State) (k : Nat) (carve : Bool) (home : Nat) : State × Bool :=
  if (s.recForward carve home).isSome then (s, !s.migHeld k home)
  else s.gate k (if carve then .carve home else .loc home .loc)

/-- A record's 64 bytes are written at its home, or are to be sent there. -/
def State.sendRecord (s : State) (va : Nat) (carve : Bool) (home : Nat) (bs : List Byte) : State × List Elem :=
  match s.recForward carve home with
  | none => (s.putRecord carve home bs, [])
  | some f => (s, (List.range 8).map fun i =>
      { Elem.virt 1 (va + 8 * i) 8 (BitVec.ofNat 64 (leNat ((bs.drop (8 * i)).take 8))) 0 0 with
        place := some (.peer f.peer (f.topg * 65536 + home % 65536 + 8 * i) false false) })

/-- Whether a record could not be sent where it belongs (17 R421). -/
def State.recCut (s : State) (carve : Bool) (home : Nat) : Bool := (s.recForward carve home).isSome && !s.fab.anyUp

/-! #### The pages of a pressed lining (07 R226) -/

/-- An event of a check that names no access kind, as one of an access of a kind. -/
def Wish.asKind (w : Wish) (kind : Nat) : Wish := if w.kind == 11 then { w with kind := kind } else w

/-- The local physical address of a page that TURN can replace at its pool home: one of local memory whose lease record has
WRITER = 1 (07 R226). For a page of any other home the device has no such record (log 92). -/
def State.frontHome (s : State) (c : Chk) : Option Nat := match c with
  | .ok (.loc a _) _ _ => if (s.mem.leaseAt a).writer then some a else none
  | _ => none

/-- The home of a back page, wherever it is. -/
def State.backHome (s : State) (c : Chk) : Option Place := match c with
  | .ok p _ _ => some (s.homePlace p)
  | _ => none

/-- Parts of a back page whose homes must be ready before it is read whole: lost sectors, and lines that the host holds (08
R257; 16 R408). -/
def State.backParts (s : State) (h : Place) : List Place :=
  match h with
  | .carve b => ((List.range 16).map fun i => b / 4096 + i).filterMap fun k => if s.mem.lostCarve.contains k then some (Place.carve (k * 4096)) else none
  | .loc b _ =>
    ((pageSectors b).filterMap fun k => if (s.mem.sec k).lost then some (Place.loc (k * 4096) .loc) else none) ++
      (s.mem.frameLines (b / 65536)).map fun x => Place.loc (x / 2 * 128) .loc
  | _ => []

/-- Whether the page of an address is under a hold or a forward. -/
def State.migrates (s : State) (k a : Nat) : Bool := s.migHeld k a || (s.mem.forward a).isSome

/-- The same of a place. -/
def State.placeMoves (s : State) (k : Nat) (p : Place) : Bool := match p with
  | .loc a _ => s.migrates k a
  | _ => false

/-- A place some bytes on. -/
def Place.plus (p : Place) (n : Nat) : Place := match p with
  | .loc a k => .loc (a + n) k
  | .carve a => .carve (a + n)
  | .peer i a c k => .peer i (a + n) c k
  | .host a k => .host (a + n) k
  | p => p

/-- Whether a place is at a peer or at the host. -/
def Place.afar : Place → Bool
  | .peer .. => true
  | .host _ _ => true
  | _ => false

/-- The elements that read a back page at a peer or at the host, before the step of its TURN. -/
def backElems (i va : Nat) (p : Place) : List Elem :=
  (List.range 8192).map fun j => { Elem.virt 3 (va + 8 * j) 8 0 0 i with place := some (p.plus (8 * j)) }

/-- The bytes that were read of a back page. -/
def Op.backBytes (o : Op) (i : Nat) : List Byte :=
  (o.elems.filter fun e => e.lane == 3 && e.reg == i).flatMap fun e => leBytes 8 (e.got.getD 0).toNat

/-- The back pages of a TURN that are at peers or at the host are read: none once they are, else the state in which the TURN
waits, or has ended. -/
def State.turnReads (s : State) (x : Nat) (o : Op) (l : Lining) (hs : List (Nat × Place)) : Option (Option State) :=
  let far := ((List.range hs.length).zip (hs.map (·.2))).filter fun h => h.2.afar
  let mine := ((List.range o.elems.length).zip o.elems).filter fun y => y.2.lane == 3
  match far.filter fun h => !mine.any fun y => y.2.reg == h.1 with
  | h :: r =>
    let es := (h :: r).flatMap fun h => backElems h.1 (l.back + h.1 * 65536) h.2
    some (some { s with ops := kset s.ops x { o with elems := o.elems ++ es } })
  | [] =>
    let w : AWork := .copy 0 0 0
    match mine.filter fun y => !y.2.done && !y.2.sent with
    | [] => if mine.all fun y => y.2.done then none else some none
    | ys => match ys.findSome? fun y => (y.2.place.bind (s.engineRefused o w false)).map fun c => (c, y.2.va) with
      | some ((cause, detail), va) => some (some (s.failOp x o cause detail va o.progress 0))
      | none =>
        let t := s.engineSend x o w false ys
        some (if t.moved s || t.fab.held.length != s.fab.held.length then some t else none)

/-- The pages that a TURN's step replaces, front address and back home, once they all are at hand: else the state in which it
waits, or has ended. -/
def State.turnPages (s : State) (x : Nat) (o : Op) (l : Lining) : Option State ⊕ List (Nat × Place) :=
  let at_ := fun (b p : Nat) => b + p * 65536
  let ps := List.range l.npages
  match s.walkGate o.ctx (ps.flatMap fun p => [at_ l.front p, at_ l.back p]) with
  | (t, false) => .inl (t.waits s)
  | (_, true) =>
    let cs := ps.map fun p => (at_ l.front p, s.check o.ctx 11 false (at_ l.front p), s.check o.ctx 11 false (at_ l.back p))
    let ws := cs.foldl (fun ws c => match c.2.1, c.2.2 with
      | .event w, .event v => addWish (addWish ws (w.asKind 1)) (v.asKind 0)
      | .event w, _ => addWish ws (w.asKind 1)
      | _, .event v => addWish ws (v.asKind 0)
      | _, _ => ws) []
    if !ws.isEmpty then
      let (t, ts, us) := s.postAll o.ctx (s.srcOf o.who o.ctx none) ws
      .inl (some { t with ops := kmod t.ops x fun o => { o with hold := ts, want := us } })
    else match cs.find? fun c => (s.frontHome c.2.1).isNone || (s.backHome c.2.2).isNone with
      | some c => .inl (some (s.failOp x o cProtection 0 c.1 o.progress 0))
      | none =>
        let hs := cs.filterMap fun c => (s.frontHome c.2.1).bind fun a => (s.backHome c.2.2).map fun b => (a, b)
        if hs.any fun h => s.migrates x h.1 || s.placeMoves x h.2 then .inl none
        else match s.turnReads x o l hs with
          | some r => .inl r
          | none => match s.gateAll x (hs.flatMap fun h => s.backParts h.2) with
            | (t, false) => .inl (t.waits s)
            | (_, true) => .inr hs

/-- Page i of a TURN: the front page at an address takes the contents of its back page at the pool home, as its next version,
and this device's copies of it go (03 R85). -/
def State.pressPage (s : State) (o : Op) (i a : Nat) (back : Place) : State :=
  let key := match back with
    | .loc b _ => s.keyAt b
    | _ => 0
  let m := s.mem.pressPage key a back (o.backBytes i)
  let m := (List.range 16).foldl (fun (m : MemSys) j => m.seal (m.poolAddr a + 4096 * j) (s.keyAt a)) m
  ({ s with mem := m }).dropPressed (a / 65536)

/-- Whether earlier asynchronous operations or TSTs of the issuer of an operation are incomplete (07 R225; 09 R277). -/
def State.turnWaits (s : State) (x : Nat) (o : Op) : Bool :=
  (s.ops.any fun e => decide (e.1 < x) && e.2.who == o.who && (match e.2.kind with
    | .async .. => true
    | .acc (.tile true _) => true
    | .acc _ => false)) ||
  match kget s.groups o.gk with
  | none => false
  | some g => g.mq.any fun e => decide (e.id < x) && o.who == .warp e.wk && (match e.work with
    | .tst .. => true
    | _ => false)

/-- The step of a TURN at the record's home: SIDE, TURNS and the front pages change at one instant (07 R225, R226; 08 R259),
and cached translations of the front region are dropped. What then is to be done stands in the operation's elements: the
record where it is to be sent, and each front page, whose sharers are to be told; lane 2 names its back page. -/
def State.turnAct (s : State) (x : Nat) (o : Op) (rec engine batch : Nat) (l : Lining) (hs : List (Nat × Place)) : State :=
  let l' := { l with side := if l.pressed then l.side else !l.side, turns := l.turns + 1 }
  let s := ((List.range hs.length).zip hs).foldl (fun s h => s.pressPage o h.1 h.2.1 h.2.2) s
  let (s, es) := s.sendRecord rec l.carve l.home (leBytes 64 (liningBits l' o.ctx))
  let s := (s.modGrid o.ctx fun g => { g with linings := kset g.linings rec l' }).modGroup o.gk fun g => { g with pubT := true }
  let s := { s with mem := { s.mem with tlb := s.mem.tlb.filter fun e =>
    !(e.ctx == o.ctx && overlap (e.va * pageBytes e.big) (pageBytes e.big) l.front (l.npages * 65536)) } }
  let pages := hs.mapIdx fun i h => { Elem.virt 0 (l.front + i * 65536) 1 0 0 i with place := some (.loc h.1 .pressed) }
  let backs := hs.mapIdx fun i h => { Elem.virt 2 (l.back + i * 65536) 1 0 0 i with place := some h.2, done := true }
  { s with ops := kset s.ops x { o with kind := .async (.turn rec true l.front l.back l.npages) 0 [] [] engine batch,
                                        elems := es ++ pages ++ backs ++ o.elems } }

/-- Where the back page of page i of a TURN is. -/
def Op.backOf (o : Op) (i : Nat) : Option Place := (o.elems.find? fun e => e.lane == 2 && e.reg == i).bind (·.place)

/-- The publication of a page is sent to its pool home. After a timeout it is a further version, of the back contents as they
are now (16 R411); an ended lease posts its event (16 Table 16-4). None when it waits. -/
def State.publishPage (s : State) (x : Nat) (o : Op) (i : Nat) (e : Elem) (a : Nat) : Option State :=
  match leaseReason (s.mem.leaseAt a) with
  | some r =>
    let (t, ts, ws) := s.postAll o.ctx (s.srcOf o.who o.ctx none) [{ reason := r, kind := 1, va := e.va }]
    some { t with ops := kmod t.ops x fun o => { o with hold := ts, want := ws } }
  | none =>
    let go := fun (s : State) => (s.setElem x i { e with swap := 1, data := 0 }).poolSend a (.publish x e.reg)
    match if e.data == 0 then none else o.backOf e.reg with
    | none => some (go s)
    | some b => match s.gateAll x (s.backParts b) with
      | (t, false) => t.waits s
      | (_, true) => some (go (s.pressPage o e.reg a b))

/-- After the step of a TURN, or for a LNOPEN: the record is sent to a new home, the pool home of each page is asked to tell its
sharers (03 R85; 07 R226); the operation is complete when all have answered. None when it waits. -/
def State.recStep (s : State) (x : Nat) (o : Op) (w : AWork) : Option State :=
  let es := (List.range o.elems.length).zip o.elems
  let far := es.filter fun y => y.2.lane == 1 && !y.2.done && !y.2.sent
  if !far.isEmpty then
    let t := s.engineSend x o w true far
    if t.moved s || t.fab.held.length != s.fab.held.length then some t else none
  else match es.find? fun y => y.2.lane == 0 && !y.2.done && y.2.swap == 0, s.mem.portFrom 0 with
    | some (i, e), some _ => match e.place with
      | some (.loc a _) => s.publishPage x o i e a
      | _ => none
    | _, _ => if o.allDone then some (s.asyncDone x o) else none

/-- A step of a TURN (07 R225). -/
def State.turnStep (s : State) (x : Nat) (o : Op) (rec : Nat) (step : Bool) (w : AWork) (engine batch : Nat) : Option State :=
  if step then s.recStep x o w
  else if s.turnWaits x o then none
  else match (kget s.grids o.ctx).bind fun g => kget g.linings rec with
    | none => some (s.failOp x o cOperand 0 0 0 0)
    | some l =>
      match if l.pressed then s.turnPages x o l else .inr [] with
      | .inl r => r
      | .inr hs =>
        if s.recCut l.carve l.home then some (s.failOp x o cPlane 0 rec 0 0)
        else match s.recGate x l.carve l.home with
          | (t, false) => t.waits s
          | (s, true) => some (s.turnAct x o rec engine batch l hs)

/-- Every sharer of a page has answered its pool home (03 R85 step 4). -/
def State.publishOf (s : State) (op page : Nat) : State :=
  { s with ops := kmod s.ops op fun o => match o.kind with
      | .async (.turn ..) _ _ _ _ _ => { o with elems := o.elems.map fun e => if (e.lane == 0 && e.reg == page) = true then { e with done := true } else e }
      | _ => o }

/-- One step of an asynchronous operation; none when it waits. -/
def State.asyncStep (s : State) (x : Nat) : Option State :=
  match kget s.ops x with
  | none => none
  | some o =>
    if !o.hold.isEmpty || !o.want.isEmpty then none
    else match o.kind with
      | .acc _ => none
      | .async .lnopen _ _ _ _ _ => s.recStep x o .lnopen
      | .async (.turn rec step f b n) _ _ _ engine batch => s.turnStep x o rec step (.turn rec step f b n) engine batch
      | .async w k ahead us engine _ => s.pieceStep x o w k ahead us engine

/-- Steps of an operation, at most fuel. -/
def State.asyncRun (s : State) (x : Nat) : Nat → State
  | 0 => s
  | n + 1 => match s.asyncStep x with
    | some s' => s'.asyncRun x n
    | none => s

/-- More steps than an operation can take. -/
def Op.asyncFuel (o : Op) : Nat :=
  match o.kind with
  | .acc _ => 0
  | .async w _ _ _ _ _ =>
    let len := match w with
      | .row _ _ r _ _ _ _ _ => r
      | .csct _ _ r _ _ _ _ _ => r
      | _ => 16
    w.total * (len + 24) + 16

/-! ### Issue -/

/-- The record read of CPX and PFOLD (07 R213, R227): a load of 64 bytes of the warp that it waits for. -/
def withRecord (s : State) (wk : Nat) (w : Warp) (c : ClausePos) (a : Nat) (k : State → Nat → Res) : Res :=
  match s.ops.find? fun o => o.2.who == .warp wk && o.2.kind == .acc .recRd with
  | some (x, o) =>
    if o.allDone then
      k { s with ops := kdel s.ops x } (packFields (o.elems.map fun e => ((e.got.getD 0).toNat, 64)))
    else waitRetry s
  | none =>
    let es := accElems [firstLane c] 8 8 0 (fun _ => a) noData
    let o := s.warpAcc wk w c .recRd es none
    match s.walksReady o with
    | (t, false) => .next (t.stallOp o)
    | (_, true) => match (protElems (s.openElems o)), decide (2 ^ 57 ≤ a) with
      | [], false => .next ((s.addOp o).transOp s.opNo)
      | _, _ => trapRes s cProtection (laneBit (firstLane c)) a

/-- The copy engines of a partition (11 R347); the choice of the step picks one (log 1), and engine 0 where there
is none (log 108). -/
def State.pickEngine (s : State) (part : Nat) : Nat :=
  let l := (List.range 128).filter fun i => (s.part part).engines.getLsbD i
  l.getD (s.choice % max 1 l.length) 0

/-- Partition of a warp. -/
def State.warpPart (s : State) (w : Warp) : Nat := match s.ctxInfo w.ctx with
  | some c => c.part
  | none => 0

/-- Whether an asynchronous instruction waits at issue: for an acquire part, or for one of 256 operations to complete. -/
def State.asyncHeld (s : State) (wk : Nat) : Bool :=
  s.acqPending (.warp wk) || decide (Config.maxAsync ≤ ((s.asyncOps wk).filter fun o => match o.2.kind with
    | .async (.word ..) _ _ _ _ _ => false
    | _ => true).length)

/-- An asynchronous operation joins the open batch (07 R209). -/
def issueAsync (s : State) (wk : Nat) (w : Warp) (c : ClausePos) (work : AWork) (slot : Option Nat) (es : List Elem := []) : Res :=
  let o : Op := { who := .warp wk, ctx := w.ctx, gk := w.gk, insn := s.ctl.insn,
                  kind := .async work 0 [] [] (s.pickEngine (s.warpPart w)) w.batch, lanes := 0, slot := slot,
                  elems := es, hold := [], want := [], epoch := 0 }
  .next ((s.setWarp wk ((w.up slot).advance c s.insnLen)).addOp o)

/-- The checks of a scratchpad or seam-window side at issue, on every address (07 R215, R217 to R221; 15 R378). A seam-window
side without an address is one all the same (02 R46). -/
def sideFault (s : State) (w : Warp) (c : ClausePos) (sides : List (Side × List Nat)) : Option Res :=
  let cs := sides.flatMap fun x => match x.1 with
    | .dv => []
    | .scr z => x.2.map fun a => (firstLane c, a, s.bankCheck w false z a)
    | .seam z =>
      if x.2.isEmpty then (if w.joined && (s.seamOf w.gk).isSome then [] else [(firstLane c, 0, .notJoined)])
      else x.2.map fun a => (firstLane c, a, s.bankCheck w true z a)
  match bankFault cs with
  | some (cause, detail, l) => some (trapRes s cause (laneBit (firstLane c)) ((l.headD (0, 0, .prot)).2.1) detail)
  | none => none

/-- Goes on when every side passes. -/
def withSides (s : State) (w : Warp) (c : ClausePos) (sides : List (Side × List Nat)) (k : Res) : Res :=
  match sideFault s w c sides with
  | some r => r
  | none => k

/-- An address in each word of a range of bytes, the first its start. -/
def rangeWords (a n : Nat) : List Nat := (List.range ((a % 4 + n + 3) / 4)).map fun i => max a (a / 4 * 4 + 4 * i)

/-- CPX (07 R215). -/
def execCpx (a b c : SReg) (s : State) : Res :=
  warpOp (.cpx a b c) s fun wk w p =>
    let rec_ := sval w.s true a.toNat
    if s.asyncHeld wk then waitRetry s
    else if rec_ % 64 != 0 then trapRes s cMisaligned (laneBit (firstLane p)) rec_
    else withRecord s wk w p rec_ fun s r =>
      let cs := (List.range 4).map fun i => (rget w.s (b.toNat + i)).toInt
      let disp := sval w.s (layDkind r == 0) c.toNat
      if !layOk r || (!layOob r && layAnyOut r cs) then trapRes s cOperand p.act
      else
        let ks := List.range (layCount r)
        let src := sideOf (laySkind r) (laySwz r)
        let dst := sideOf (layDkind r) (laySwz r)
        let sa := if laySkind r == 0 then [] else (ks.filter fun k => !layOut r cs k).map fun k => laySrc r cs k
        let da := if layDkind r == 0 then [] else ks.map fun k => layDst r disp k
        withSides s w p [(src, sa), (dst, da)] (issueAsync s wk w p (.cpx r disp cs) none)

/-- Buffers of a warp that are still in use: their index step or a user of theirs is incomplete (07 R217). -/
def State.liveBufs (s : State) (wk : Nat) (w : Warp) : List IBuf :=
  w.ibufs.filter fun b => khas s.ops b.op || s.ops.any fun o => o.2.who == .warp wk && (match o.2.kind with
    | .async x _ _ _ _ _ => x.buf == some b.op
    | .acc _ => false)

/-- CGAT, index step (07 R217). -/
def execCgatIdx (a b : SReg) (ty : BitVec 4) (s : State) : Res :=
  warpOp (.cgatIdx a b ty) s fun wk w c =>
    let addr := sval w.s true a.toNat
    let n := (rget w.s b.toNat).toNat
    if n == 0 || 4096 < n then trapRes s cOperand c.act
    else if addr % esize ty.toNat != 0 then trapRes s cMisaligned (laneBit (firstLane c)) addr
    else if s.asyncHeld wk || Config.indexBuffers ≤ (s.liveBufs wk w).length then waitRetry s
    else
      let buf : IBuf := { op := s.opNo, ty := ty.toNat, n := n, vals := [], full := false, own := true }
      issueAsync s wk { w with ibufs := s.liveBufs wk w ++ [buf] } c (.idx addr n ty.toNat) none

/-- The latest index step of the warp itself. -/
def Warp.latestBuf (w : Warp) : Option IBuf := (w.ibufs.filter (·.own)).getLast?

/-- CGAT, row step (07 R218). -/
def execCgatRow (d a b c : SReg) (kind swz : BitVec 2) (s : State) : Res :=
  warpOp (.cgatRow d a b c kind swz) s fun wk w p =>
    let dst := sval w.s true d.toNat
    let r := (rget w.s b.toNat).toNat
    match w.latestBuf with
    | none => trapRes s cOperand p.act
    | some i =>
      if r % 16 != 0 || r == 0 || 65536 < r then trapRes s cOperand p.act
      else if s.asyncHeld wk then waitRetry s
      else
        let side := sideOf kind.toNat swz.toNat
        withSides s w p [(side, rangeWords dst (i.n * r))]
          (issueAsync s wk w p (.row dst (sval w.s true a.toNat) r (rget w.s c.toNat).toNat i.n i.ty side i.op) none)

/-- CSCT (07 R220). -/
def execCsct (d a b c : SReg) (kind swz : BitVec 2) (s : State) : Res :=
  warpOp (.csct d a b c kind swz) s fun wk w p =>
    let src := sval w.s true a.toNat
    let r := (rget w.s b.toNat).toNat
    match w.latestBuf with
    | none => trapRes s cOperand p.act
    | some i =>
      if r % 16 != 0 || r == 0 || 65536 < r then trapRes s cOperand p.act
      else if s.asyncHeld wk then waitRetry s
      else
        let side := sideOf kind.toNat swz.toNat
        withSides s w p [(side, rangeWords src (i.n * r))]
          (issueAsync s wk w p (.csct (sval w.s true d.toNat) src r (rget w.s c.toNat).toNat i.n i.ty side i.op) none)

/-- CRED (07 R221). -/
def execCred (f : BitVec 2) (d a b : SReg) (ty : BitVec 4) (kind swz : BitVec 2) (s : State) : Res :=
  warpOp (.cred f d a b ty kind swz) s fun wk w p =>
    let dst := sval w.s true d.toNat
    let src := sval w.s true a.toNat
    let n := (rget w.s b.toNat).toNat
    let esz := esize ty.toNat
    if n == 0 || 2 ^ 24 < n then trapRes s cOperand p.act
    else if dst % esz != 0 then trapRes s cMisaligned (laneBit (firstLane p)) dst
    else if src % esz != 0 then trapRes s cMisaligned (laneBit (firstLane p)) src
    else if s.asyncHeld wk then waitRetry s
    else
      let side := sideOf kind.toNat swz.toNat
      withSides s w p [(side, rangeWords src (n * esz))]
        (issueAsync (s.modGroup w.gk fun g => { g with pub := true }) wk w p (.cred dst src n ty.toNat f.toNat side) none)

/-- CSEAL (07 R210). -/
def execCseal (cw add : Bool) (d a : SReg) (s : State) : Res :=
  warpOp (.cseal cw add d a) s fun wk w c =>
    let addr := sval w.s true a.toNat
    if s.acqPending (.warp wk) then waitRetry s
    else if cw && addr % 8 != 0 then trapRes s cMisaligned (laneBit (firstLane c)) addr
    else if cw && 2 ^ 57 ≤ addr then trapRes s cProtection (laneBit (firstLane c)) addr
    else if Config.maxBatches ≤ w.sealed.length then waitRetry s
    else
      let word : Option ComplWord :=
        if cw then some { addr := addr, val := BitVec.ofNat 64 (sval w.s true d.toNat), add := add, insn := s.ctl.insn } else none
      let s := if cw then s.modGroup w.gk fun g => { g with pub := true } else s
      doneWarp s wk (w.sealOpen word) c

/-- CWAIT (07 R211). -/
def execCwait (n : BitVec 8) (s : State) : Res :=
  warpOp (.cwait n) s fun wk w c =>
    if s.acqPending (.warp wk) || n.toNat < w.sealed.length then waitRetry s else doneWarp s wk w c

/-- The home of a lining record in a page of local mode. -/
def Place.recHome (p : Place) (l : DWord) : Option (Bool × Nat) :=
  match p with
  | .loc h _ => some (false, h)
  | .carve h => if leafMode l == 0 then some (true, h) else none
  | _ => none

/-- Goes on with the home of a lining record, none where its page is not in local mode, and with whether the page has RD and W;
the warp waits for the translation (07 R222, R223). -/
def withLineHome (s : State) (wk : Nat) (w : Warp) (a : Nat) (k : Option (Bool × Nat) → Bool → Res) : Res :=
  match s.walkGate w.ctx [s.lined w.ctx a false] with
  | (t, false) => .next (t.stallWalk w.ctx [s.lined w.ctx a false])
  | (_, true) => match s.check w.ctx 11 false a with
    | .prot => k none false
    | .event x => .next (s.holdWarp wk w s.ctl.insn a (x.asKind 1))
    | .ok p l _ => k (p.recHome l) (leafRd l && leafW l)

/-- The open lining that an instruction of a context names by its record: the one whose record stands at the home, or, where the
record's page has no local home any more, the one that the context opened at the address. -/
def State.openLining (s : State) (ctx rec_ : Nat) (h : Option (Bool × Nat)) : Option (Nat × Nat × Lining) :=
  match h with
  | some h => s.liningAt h.1 h.2
  | none => ((kget s.grids ctx).bind fun g => kget g.linings rec_).map fun l => (ctx, rec_, l)

/-- Goes on at a record's home once it is ready. A record in a page that is not in local mode, or lacks RD or W, counts as a
failed permission (log 31). -/
def withRecHome (s : State) (c : ClausePos) (rec_ : Nat) (h : Option (Bool × Nat)) (perm : Bool) (k : Bool → Nat → Res) : Res :=
  let lane := laneBit (firstLane c)
  match h, perm with
  | some (carve, home), true =>
    if s.recCut carve home then trapRes s cPlane lane rec_
    else match s.recGate s.opNo carve home with
      | (t, false) => .next t
      | (_, true) => k carve home
  | _, _ => trapRes s cProtection lane rec_

/-- Whether a range of pages overlaps a region of an open lining of a context. -/
def Grid.liningHits (g : Grid) (a n : Nat) : Bool :=
  g.linings.any fun l => overlap a n l.2.front (l.2.npages * 65536) || overlap a n l.2.back (l.2.npages * 65536)

/-- LNOPEN (07 R223): the record is written at its home when the instruction issues. A supervisor warp, which has no grid, takes
ILLEGAL_OPERAND, here and at the close and TURN (log 109). -/
def execLnopen (d a b c : SReg) (s : State) : Res :=
  warpOp (.lnopen d a b c) s fun wk w p =>
    let rec_ := sval w.s true d.toNat
    let front := sval w.s true a.toNat
    let back := sval w.s true b.toNat
    let n := (rget w.s c.toNat).toNat
    match kget s.grids w.ctx with
    | none => trapRes s cOperand p.act
    | some g =>
      if s.asyncHeld wk then waitRetry s
      else if n == 0 || 65535 < n || front % 65536 != 0 || back % 65536 != 0 || rec_ % 64 != 0 ||
          overlap front (n * 65536) back (n * 65536) || g.liningHits front (n * 65536) || g.liningHits back (n * 65536) ||
          Config.maxLinings ≤ g.linings.length || khas g.linings rec_ then trapRes s cOperand p.act
      else withLineHome s wk w rec_ fun h perm =>
        if (s.openLining w.ctx rec_ h).isSome then trapRes s cOperand p.act
        else withRecHome s p rec_ h perm fun carve home =>
          match s.walkGate w.ctx [front] with
          | (t, false) => .next (t.stallWalk w.ctx [front])
          | (_, true) => match s.check w.ctx 11 false front with
            | .prot => trapRes s cProtection (laneBit (firstLane p)) front
            | .event x => .next (s.holdWarp wk w s.ctl.insn front (x.asKind 0))
            | .ok _ l _ =>
              let li : Lining := { home := home, carve := carve, front := front, back := back, npages := n, side := false,
                                   turns := 0, pressed := leafPressed l, group := w.gk }
              let (s, es) := s.sendRecord rec_ carve home (leBytes 64 (liningBits li w.ctx))
              let s := s.modGrid w.ctx fun g => { g with linings := kset g.linings rec_ li }
              issueAsync s wk w p .lnopen none es

/-- LNOPEN with CLOSE (07 R223): it waits for the warp's earlier asynchronous operations. -/
def execLnopenClose (d : SReg) (s : State) : Res :=
  warpOp (.lnopenClose d) s fun wk w p =>
    let rec_ := sval w.s true d.toNat
    if s.asyncHeld wk then waitRetry s
    else if rec_ % 64 != 0 then trapRes s cOperand p.act
    else withLineHome s wk w rec_ fun h perm =>
      match s.openLining w.ctx rec_ h with
      | none => trapRes s cOperand p.act
      | some (grid, key, l) =>
        if !(s.asyncOps wk).isEmpty then waitRetry s
        else if l.side then trapRes s cOperand p.act
        else withRecHome s p rec_ h perm fun carve home =>
          let (s, es) := match s.recForward carve home with
            | none => ({ s with mem := s.mem.closeLining l }, [])
            | some _ => s.sendRecord rec_ carve home (leBytes 64 (liningBits l grid &&& (2 ^ 512 - 2)))
          let s := s.modGrid grid fun g => { g with linings := kdel g.linings key }
          issueAsync s wk w p .lnopen none es

/-- Whether the device knows at issue that a front page of a lining lacks WRITER (07 R226); a page that is not translated yet is
checked at the step. -/
def State.lacksWriter (s : State) (ctx : Nat) (l : Lining) : Option Nat :=
  ((List.range l.npages).map fun p => l.front + p * 65536).find? fun a =>
    (s.walkWaits ctx a).isNone && (match s.check ctx 11 false a with
      | .event _ => false
      | c => (s.frontHome c).isNone)

/-- TURN (07 R225, R226). -/
def execTurn (a : SReg) (slot : Slot) (s : State) : Res :=
  warpOp (.turn a slot) s fun wk w p =>
    let rec_ := sval w.s true a.toNat
    let lane := laneBit (firstLane p)
    if s.asyncHeld wk || slotFull w (slot.map (·.toNat)) then waitRetry s
    else withLineHome s wk w rec_ fun h perm =>
      match s.openLining w.ctx rec_ h with
      | none => trapRes s cOperand p.act
      | some (grid, key, l) =>
        if grid != w.ctx || h.isNone || !perm then trapRes s cProtection lane rec_
        else match if l.pressed then s.lacksWriter w.ctx l else none with
          | some va => trapRes s cProtection lane va
          | none => issueAsync s wk w p (.turn key false l.front l.back l.npages) (slot.map (·.toNat))

/-! ### Folds (07 R227, R228) -/

/-- Whether a fold index is in range (07 R227). -/
def Grid.foldOk (g : Grid) (f : Nat) : Bool := f != 0 && decide (f ≤ bitsOf g.foldbase.toNat 0 12)

/-- Reserved bits of a fold record (03 Table 3-11). -/
def foldReserved (r : Nat) : Bool :=
  bitsOf r 0 8 != 0 || bitsOf r 10 2 != 0 || bitsOf r 57 7 != 0 || bitsOf r 80 16 != 0 || bitsOf r 144 16 != 0 ||
    bitsOf r 208 16 != 0 || bitsOf r 272 16 != 0 || bitsOf r 352 160 != 0

/-- Fetch or release of a region of an installed fold. -/
def foldAct (i : Instr) (s : State) (a b c : SReg) (fetch : Bool) : Res :=
  warpOp i s fun wk w p =>
    let f := (rget w.s a.toNat).toNat % 4096
    match kget s.grids w.ctx with
    | none => trapRes s cOperand p.act
    | some g =>
      match g.foldOk f, kget g.folds f with
      | true, some r =>
        if s.acqPending (.warp wk) then waitRetry s
        else doneWarp (s.foldRegion w.ctx r.bits (rget w.s b.toNat).toNat (rget w.s c.toNat).toNat fetch) wk w p
      | _, _ => trapRes s cOperand p.act

/-- PFOLD, fetch. -/
def execPfoldFetch (a b c : SReg) (s : State) : Res := foldAct (.pfoldFetch a b c) s a b c true

/-- PFOLD, release. -/
def execPfoldRelease (a b c : SReg) (s : State) : Res := foldAct (.pfoldRelease a b c) s a b c false

/-- PFOLD, install (07 R227; 03 R84). -/
def execPfoldInstall (a : SReg) (s : State) : Res :=
  warpOp (.pfoldInstall a) s fun wk w p =>
    let f := (rget w.s a.toNat).toNat % 4096
    match kget s.grids w.ctx with
    | none => trapRes s cOperand p.act
    | some g =>
      if !g.foldOk f then trapRes s cOperand p.act
      else if s.acqPending (.warp wk) then waitRetry s
      else
        let base := bitsOf g.foldbase.toNat 16 41 * 65536
        withRecord s wk w p (base + 64 * f) fun s r =>
          if foldReserved r then trapRes s cOperand p.act
          else
            let s := s.modGrid w.ctx fun g => { g with folds := kset g.folds f { count := 0, k := foldFirst r, bits := r } }
            let s := s.setWarp wk (w.advance p s.insnLen)
            .next (s.foldRun w.ctx f (foldNstep r + 1))

/-- FOLDX (07 R228). -/
def execFoldx (a : SReg) (s : State) : Res :=
  warpOp (.foldx a) s fun wk w p =>
    let f := (rget w.s a.toNat).toNat % 4096
    match kget s.grids w.ctx with
    | none => trapRes s cOperand p.act
    | some g =>
      if !g.foldOk f then trapRes s cOperand p.act
      else if s.acqPending (.warp wk) then waitRetry s
      else match kget g.folds f with
        | none => doneWarp s wk w p
        | some r =>
          let s := s.foldRegion w.ctx r.bits 0 65536 false
          doneWarp (s.modGrid w.ctx fun g => { g with folds := kdel g.folds f }) wk w p

/-! ### LANDARM (07 R229; 17 R427) -/

/-- LANDARM. -/
def execLandarm (a : SReg) (s : State) : Res :=
  warpOp (.landarm a) s fun wk w p =>
    let n := (rget w.s a.toNat).toNat
    let v := s.win n
    if s.acqPending (.warp wk) then waitRetry s
    else if 64 ≤ n || !v.en || !(v.ctx == none || v.ctx == some w.ctx) then trapRes s cOperand p.act
    else doneWarp (s.modWin n fun v => { v with ctx := some w.ctx, count := 0, fault := false }) wk w p

end Sys2Proof.Machine
end

