-- ==== Sys2Proof/Machine/Tiles.lean ====
section
/-! DEFINITION. Tiles (09 R263 to R273): layouts, darned slots (03 R86), the sparse form, the order of accumulation of
MMA and MMAS, TCVT. -/

namespace Sys2Proof.Machine

/-! ### Formats of class 6 (04 Table 4-10; 09 Tables 9-2, 9-3) -/

/-- Whether a class 6 type code is a scaled format. -/
def tfScaled (fmt : Nat) : Bool := decide (7 ≤ fmt) && decide (fmt ≤ 10)

/-- Bits of an element of a class 6 type. -/
def tfBits (fmt : Nat) : Nat :=
  match fmt with
  | 0 => 16 | 1 => 16 | 2 => 32 | 3 => 64 | 6 => 4 | 9 => 4 | _ => 8

/-- Elements of a row of an operand tile (09 Table 9-2). -/
def tfK (fmt : Nat) : Nat := 3072 / tfBits fmt

/-- Blocks of a row. -/
def tfBlocks (fmt : Nat) : Nat := tfK fmt / 24

/-- Bytes of a darned slot (03 R86). -/
def slotBytes (fmt : Nat) : Nat := if fmt == 9 then 16 else 32

/-- A tag byte from its fields (09 Table 9-1), VALID set. -/
def tagOf (form acc sp : Bool) (fmt : Nat) : Byte :=
  BitVec.ofNat 8 (128 + 64 * form.toNat + 32 * acc.toNat + 16 * sp.toNat + fmt)

def tagValid (t : Byte) : Bool := t.getLsbD 7
def tagForm (t : Byte) : Bool := t.getLsbD 6
def tagAcc (t : Byte) : Bool := t.getLsbD 5
def tagSp (t : Byte) : Bool := t.getLsbD 4
def tagFmt (t : Byte) : Nat := t.toNat % 16
/-- A tag without FORM: what the issue-order tags hold (09 R274). -/
def tagIssue (t : Byte) : Byte := t &&& 0xBF

/-- Bytes of a dense row of a tag (09 Table 9-2). -/
def tagRowBytes (t : Byte) : Nat := if tagAcc t then (if tagFmt t == 3 then 1024 else 512) else 384

/-- An empty tile (09 R265). -/
def Tile.empty : Tile := { tag := 0, itag := 0, data := [], hem := [] }

/-- Memory that holds a list of bytes from an address. -/
def memOfBytes (a : Nat) (bs : List Byte) : Memory :=
  (((List.range bs.length).map (a + ·)).zip bs).filter fun e => e.2 != 0

/-! ### Elements -/

/-- The code of element k of row r in a dense layout. -/
def denseCode (m : Memory) (rowBytes bits r k : Nat) : Nat :=
  if bits == 4 then bitsOf (mget m (rowBytes * r + k / 2)).toNat (4 * (k % 2)) 4
  else mnum m (rowBytes * r + bits / 8 * k) (bits / 8)

/-- Stored value j of row r, block b of the sparse layout, and its index (09 Table 9-4). -/
def sparseVal (m : Memory) (fmt r b j : Nat) : Nat :=
  if fmt == 9 then bitsOf (mget m (192 * r + 6 * b + j / 2)).toNat (4 * (j % 2)) 4
  else (mget m (192 * r + 12 * b + j)).toNat
def sparseIx (m : Memory) (r b j : Nat) : Nat := bitsOf (mnum m (0x6000 + 96 * r + 3 * b) 3) (2 * j) 2
/-- Whether band-block (k, b) is live. -/
def bandLive (m : Memory) (band b : Nat) : Bool := bitAt (mnum m (0x9000 + 4 * band) 4) b

/-- The expansion of a sparse-form tile (09 R271). -/
def sparseCode (m : Memory) (fmt r k : Nat) : Nat :=
  let b := k / 24
  let g := k % 24 / 4
  let i := k % 4
  if !bandLive m (r / 16) b then 0
  else if sparseIx m r b (2 * g) == i then sparseVal m fmt r b (2 * g)
  else if sparseIx m r b (2 * g + 1) == i then sparseVal m fmt r b (2 * g + 1)
  else 0

/-- The code of element k of row r. -/
def Tile.code (t : Tile) (r k : Nat) : Nat :=
  if tagForm t.tag then sparseCode t.data (tagFmt t.tag) r k
  else denseCode t.data (tagRowBytes t.tag) (tfBits (tagFmt t.tag)) r k

/-- The address of the scale of row r, block b in the hem. -/
def hemAt (fmt r b : Nat) : Nat := tfBlocks fmt * r + b

/-- The value of an element: scaled formats before their scale (09 R267; 05 R132). -/
def Tile.val (t : Tile) (r k : Nat) : FVal :=
  let fmt := tagFmt t.tag
  if tfScaled fmt then sxVal (code3 fmt) (t.code r k) else fdecode (fmtOf (code3 fmt)) (t.code r k)

/-- The scale byte of a block; a non-scaled format uses 2^0. -/
def Tile.scale (t : Tile) (r b : Nat) : Nat :=
  if tfScaled (tagFmt t.tag) then (mget t.hem (hemAt (tagFmt t.tag) r b)).toNat else 127

/-! ### MMA and MMAS (09 R267 to R269) -/

/-- Whether a value is +0 or −0. -/
def FVal.isZero : FVal → Bool
  | .fin _ m _ => m == 0
  | _ => false

/-- The exact sum of the products of a block, with NV (09 R268): a product with a zero factor is +0. -/
def blockSum (ps : List (FVal × FVal)) : FVal × Nat :=
  let l := ps.filter fun p => !p.1.isZero && !p.2.isZero
  let prods := l.map fun p => (fmulV p.1 p.2).getD (.nan false)
  let sig := if l.any (fun p => p.1 == .nan true || p.2 == .nan true) then flNV else 0
  let pinf := prods.any (· == .inf false)
  let ninf := prods.any (· == .inf true)
  if pinf && ninf then (.nan false, flOr sig flNV)
  else if anyNan prods then (.nan false, sig)
  else if pinf then (.inf false, 0)
  else if ninf then (.inf true, 0)
  else
    let x := prods.foldl (fun (a : Bool × Nat × Int) v => match v with
      | .fin n m e => fsum a.1 a.2.1 a.2.2 n m e
      | _ => a) (false, 0, 0)
    (.fin (x.1 && x.2.1 != 0) x.2.1 x.2.2, 0)

/-- The sum times the two scales; a scale of 0xFF makes it a NaN and sets NS. -/
def blockScale (v : FVal × Nat) (x y : Nat) : FVal × Nat :=
  if x == 255 || y == 255 then (.nan false, flOr v.2 flNS)
  else match v.1 with
    | .fin n m e => (.fin n m (e + x + y - 254), v.2)
    | u => (u, v.2)

/-- One block added to the accumulator with its two roundings (09 R267). -/
def accStep (acc : Nat × Nat) (v : FVal × Nat) : Nat × Nat :=
  let f := fmtOf 10
  let r := froundV f .rn v.1
  let a := fdecode f acc.1
  if anyNan [a] then (fnan f, flOr acc.2 (flOr v.2 r.2))
  else
    let z := faddV f .rn a (fdecode f r.1)
    (z.1, flOr acc.2 (flOr v.2 (flOr r.2 z.2)))

/-- One element of D, and its flags, for the pairings with an FP32 accumulator (09 R267). -/
def mmaElem (a b : Tile) (c0 m n : Nat) : Nat × Nat :=
  (List.range (tfBlocks (tagFmt a.tag))).foldl (fun acc blk =>
    let xs := (List.range 24).map fun j => a.val m (24 * blk + j)
    let ys := (List.range 24).map fun j => b.val n (24 * blk + j)
    if xs.all FVal.isZero || ys.all FVal.isZero then acc
    else accStep acc (blockScale (blockSum (xs.zip ys)) (a.scale m blk) (b.scale n blk))) (c0, 0)

/-- One element of D for the FP64 pairing (09 R269): row is the row of A. -/
def mmaElem64 (a b : Tile) (c0 row n : Nat) : Nat × Nat :=
  let f := fmtOf 11
  (List.range 48).foldl (fun acc k =>
    let z := ffmaR f .rn (a.val row k) (b.val n k) (fdecode f acc.1)
    (z.1, flOr acc.2 z.2)) (c0, 0)

/-- The result tile of an MMA or MMAS and its flags (09 R266, R288). -/
def mmaTile (a b c : Tile) (hi zc : Bool) : Tile × Nat :=
  let dbl := tagFmt a.tag == 3
  let size := if dbl then 8 else 4
  let elems := (List.range (if dbl then 64 else 128)).flatMap fun m => (List.range 128).map fun n =>
    let c0 := if zc then 0 else mnum c.data ((128 * m + n) * size) size
    if dbl then mmaElem64 a b c0 (64 * hi.toNat + m) n else mmaElem a b c0 m n
  let tag := if dbl then 0xA3 else 0xA2
  ({ tag := tag, itag := tag, data := memOfBytes 0 (elems.flatMap fun e => leBytes size e.1), hem := [] },
   elems.foldl (fun fl e => flOr fl e.2) 0)

/-- Accepted pairings of A and B, by format (09 Table 9-3). -/
def pairOk (x y : Nat) : Bool :=
  match x with
  | 0 => y == 0
  | 1 => y == 1
  | 3 => y == 3
  | 4 => y == 4 || y == 5
  | 5 => y == 4 || y == 5
  | 6 => y == 6
  | 7 => y == 7 || y == 8 || y == 10
  | 8 => y == 7 || y == 8 || y == 10
  | 10 => y == 7 || y == 8 || y == 10
  | 9 => y == 9
  | _ => false

/-- The whole pairing check (09 R266). -/
def mmaPairing (a b c : Byte) (hi zc : Bool) : Bool :=
  let dbl := tagFmt a == 3
  tagValid a && tagValid b && !tagAcc a && !tagAcc b && pairOk (tagFmt a) (tagFmt b) &&
    (zc || c == (if dbl then 0xA3 else 0xA2)) && (dbl || !hi)

/-! ### Darned slots (03 R86) -/

/-- A block of 24 codes with its presence bitmap and scale. -/
structure DBlock where
  bits  : Nat
  scale : Nat
  codes : List Nat
  deriving DecidableEq, Repr

/-- Position of element e among the present ones. -/
def rankOf (bits e : Nat) : Nat := ((List.range e).filter fun i => bitAt bits i).length

/-- The block that the bytes of a slot hold. -/
def slotRead (fmt : Nat) (bs : List Byte) : DBlock :=
  let h := leNat (bs.take 4)
  let body := leNat (bs.drop 4)
  let w := tfBits fmt
  { bits := bitsOf h 0 24, scale := bitsOf h 24 8,
    codes := (List.range 24).map fun e => if bitAt h e then bitsOf body (w * rankOf h e) w else 0 }

/-- The slot of a block of codes (09 R283): present where the code is not zero. -/
def slotWrite (fmt scale : Nat) (codes : List Nat) : List Byte :=
  let bits := packFields (codes.map fun c => ((c != 0).toNat, 1))
  leBytes (slotBytes fmt) (packFields ([(bits, 24), (scale, 8)] ++ (codes.filter (· != 0)).map fun c => (c, tfBits fmt)))

/-- Codes packed as bytes: pairs of nibbles, low first, for 4-bit codes. -/
def packCodes (w : Nat) : List Nat → List Byte
  | [] => []
  | [x] => [BitVec.ofNat 8 x]
  | x :: y :: r => if w == 4 then BitVec.ofNat 8 (x + 16 * y) :: packCodes w r else BitVec.ofNat 8 x :: packCodes w (y :: r)

/-- A list cut into pieces of n. -/
def chunks {α : Type} (n : Nat) : Nat → List α → List (List α)
  | 0, _ => []
  | k + 1, l => if l.isEmpty then [] else l.take n :: chunks n k (l.drop n)

/-! ### The form of a classified load (09 R272) -/

/-- Whether a bitmap has at most two bits in each nibble. -/
def twoOfFour (bits : Nat) : Bool := (List.range 6).all fun g => decide (((List.range 4).filter fun i => bitAt bits (4 * g + i)).length ≤ 2)

/-- The two stored positions of group g: present elements first, then the lowest absent positions. -/
def groupPos (bits g : Nat) : List Nat :=
  let on := (List.range 4).filter fun i => bitAt bits (4 * g + i)
  let off := (List.range 4).filter fun i => !bitAt bits (4 * g + i)
  (on ++ off).take 2

/-- Stored values and index field of a row of a live band-block. -/
def sparseRow (b : DBlock) : List Nat × Nat :=
  let ps := (List.range 6).flatMap fun g => (groupPos b.bits g).map fun i => (g, i)
  (ps.map fun p => b.codes.getD (4 * p.1 + p.2) 0, packFields (ps.map fun p => (p.2, 2)))

/-- Blocks of a row; a row beyond those read is empty. -/
def rowBlocks (nb : Nat) (rows : List (List DBlock)) (r : Nat) : List DBlock :=
  rows.getD r (List.replicate nb { bits := 0, scale := 0, codes := List.replicate 24 0 })

/-- The 16 blocks of band-block (k, b). -/
def bandBlocks (nb : Nat) (rows : List (List DBlock)) (band b : Nat) : List DBlock :=
  (List.range 16).map fun i => (rowBlocks nb rows (16 * band + i)).getD b { bits := 0, scale := 0, codes := [] }

/-- Whether a band-block is dead; whether it is 2:4. -/
def bandDead (l : List DBlock) : Bool := l.all fun b => b.bits == 0
def band24 (l : List DBlock) : Bool := !bandDead l && l.all fun b => twoOfFour b.bits

/-- Whether a classified load takes the sparse form: no band-block is dense. -/
def takesForm (nb : Nat) (rows : List (List DBlock)) : Bool :=
  (List.range 8).all fun k => (List.range nb).all fun b => let l := bandBlocks nb rows k b; bandDead l || band24 l

/-- The hem of loaded rows: each block's scale. -/
def hemOf (fmt : Nat) (rows : List (List DBlock)) : Memory :=
  memOfBytes 0 (rows.flatMap fun r => (r.map fun b => BitVec.ofNat 8 b.scale) ++ List.replicate (tfBlocks fmt - r.length) 0)

/-- The dense data of loaded rows. -/
def denseData (fmt : Nat) (rows : List (List DBlock)) : Memory :=
  memOfBytes 0 (rows.flatMap fun r => packCodes (tfBits fmt) (r.flatMap (·.codes)))

/-- The sparse data of loaded rows (09 Table 9-4). -/
def sparseData (fmt : Nat) (rows : List (List DBlock)) : Memory :=
  let nb := tfBlocks fmt
  let live := fun (k b : Nat) => !bandDead (bandBlocks nb rows k b)
  let cell := fun (r b : Nat) =>
    if live (r / 16) b then sparseRow ((rowBlocks nb rows r).getD b { bits := 0, scale := 0, codes := [] })
    else (List.replicate 12 0, 0)
  let vals := (List.range 128).flatMap fun r => packCodes (tfBits fmt) ((List.range nb).flatMap fun b => (cell r b).1)
  let ixs := (List.range 128).flatMap fun r =>
    ((List.range nb).flatMap fun b => leBytes 3 (cell r b).2) ++ List.replicate (96 - 3 * nb) 0
  let maps := (List.range 8).flatMap fun k => leBytes 4 (packFields ((List.range nb).map fun b => ((live k b).toNat, 1)))
  memOfBytes 0 (vals ++ ixs ++ maps)

/-- The tile that a TLD leaves, from the bytes of its rows, and the NS flag (09 R282). -/
def tldTile (darned : Bool) (fmt : Nat) (sp acc : Bool) (rows : List (List Byte)) : Tile × Nat :=
  if !darned then
    let tag := tagOf false acc false fmt
    ({ tag := tag, itag := tag, data := memOfBytes 0 rows.flatten, hem := [] }, 0)
  else
    let nb := tfBlocks fmt
    let bl := rows.map fun r => (chunks (slotBytes fmt) nb r).map (slotRead fmt)
    let form := sp && takesForm nb bl
    let tag := tagOf form false sp fmt
    ({ tag := tag, itag := tagIssue tag, data := if form then sparseData fmt bl else denseData fmt bl, hem := hemOf fmt bl },
     if bl.any (fun r => r.any fun b => b.scale == 255 && b.bits != 0) then flNS else 0)

/-- The bytes of row r that a TST writes (09 R283). -/
def Tile.storeRow (t : Tile) (r : Nat) : List Byte :=
  let fmt := tagFmt t.tag
  if tfScaled fmt then
    (List.range (tfBlocks fmt)).flatMap fun b =>
      slotWrite fmt (mget t.hem (hemAt fmt r b)).toNat ((List.range 24).map fun j => t.code r (24 * b + j))
  else mread t.data (tagRowBytes t.tag * r) (tagRowBytes t.tag)

/-- Bytes of a stored or loaded row of a format: its dense row, or its slots. -/
def memRowBytes (fmt : Nat) (acc : Bool) : Nat := if tfScaled fmt then 512 else tagRowBytes (tagOf false acc false fmt)

/-! ### TCVT (09 R286) -/

/-- A code written in a dense layout. -/
def putCode (m : Memory) (bits r k x : Nat) : Memory :=
  if bits == 4 then
    let a := 384 * r + k / 2
    let o := (mget m a).toNat
    mset m a (BitVec.ofNat 8 (if k % 2 == 0 then o / 16 * 16 + x % 16 else o % 16 + 16 * (x % 16)))
  else mwrite m (384 * r + bits / 8 * k) (leBytes (bits / 8) x)

/-- TCVT of the tile src into dst: the tile it leaves and its flags. -/
def tcvtTile (dst src : Tile) (fmt rm c0 : Nat) (sat : Bool) : Tile × Nat :=
  let tag := tagOf false false false fmt
  let d0 : Tile := if tagIssue dst.tag == tag then dst else { tag := tag, itag := dst.itag, data := [], hem := [] }
  let x := fun r k => mnum src.data (512 * r + 4 * k) 4
  let w := tfBits fmt
  let row := fun (acc : Tile × Nat) (r : Nat) =>
    if !tfScaled fmt then
      (List.range 128).foldl (fun (a : Tile × Nat) c =>
        let y := fcvt (code3 fmt) 10 (rmodeOf rm) sat (x r c)
        ({ a.1 with data := putCode a.1.data w r (c0 + c) y.1 }, flOr a.2 y.2)) acc
    else
      ((List.range (tfBlocks fmt)).filter fun b => decide (24 * b < c0 + 128) && decide (c0 ≤ 24 * b)).foldl
        (fun (a : Tile × Nat) b =>
          let xs := (List.range 24).map fun j => if 24 * b + j < c0 + 128 then x r (24 * b + j - c0) else 0
          let y := packGranule (code3 fmt) rm sat 0 0 xs
          let data := ((List.range 24).zip y.2.1).foldl (fun m e => putCode m w r (24 * b + e.1) e.2) a.1.data
          ({ a.1 with data := data, hem := mset a.1.hem (hemAt fmt r b) (BitVec.ofNat 8 y.1) }, flOr a.2 y.2.2)) acc
  (List.range 128).foldl row (d0, 0)

end Sys2Proof.Machine
end

