-- ==== Sys2Proof/Machine/Matrix.lean ====
section
/-! DEFINITION. The matrix class (09 R274 to R288): the checks against issue-order tags, the queue of a group, the pipes
of a cluster, and what each entry does. -/

namespace Sys2Proof.Machine

open Host

/-! ### Tiles of a group -/

/-- A tile of a group; one that the map does not list is empty. -/
def Group.tile (g : Group) (t : Nat) : Tile := kgetD g.tiles t Tile.empty

/-- The issue-order tag of a tile. -/
def Group.itag (g : Group) (t : Nat) : Byte := (g.tile t).itag

/-- A tile with a new content; its issue-order tag stays. -/
def Group.putTile (g : Group) (t : Nat) (x : Tile) : Group :=
  { g with tiles := kset g.tiles t { x with itag := g.itag t } }

/-- The issue-order tag of a tile set. -/
def Group.setItag (g : Group) (t : Nat) (x : Byte) : Group := { g with tiles := kset g.tiles t { g.tile t with itag := x } }

/-- Whether a group holds tiles (09 R263). -/
def State.holdsTiles (s : State) (gk : Nat) : Bool :=
  match kget s.grids (gkGrid gk) with
  | some g => g.desc.tile
  | none => false

/-! ### Issue -/

/-- What an instruction asks of its queue: its checks, the tag it leaves, its work and the requests of its rows. -/
structure MatReq where
  operand : Bool
  pair    : Bool
  mis     : Option Nat
  tag     : Option (Nat × Byte)
  work    : MWork
  rows    : Option (Bool × List Elem)

/-- The requests of the rows of a TLD or TST, 8 bytes each; reg is the row. Of slots of 32 bytes that are loaded, those of the
second half have swap = 1 (03 R86). -/
def rowElems (addr stride n bytes : Nat) (halves : Bool := false) : List Elem :=
  (List.range n).flatMap fun r => (List.range (bytes / 8)).map fun j =>
    Elem.virt 0 (addr + r * stride + 8 * j) 8 0 (if halves && j % 4 / 2 == 1 then 1 else 0) r

/-- An instruction of the matrix class enters its group's queue (09 R274, R281; the order of checks is 15 R378's). -/
def matIssue (i : Instr) (s : State) (collective : Bool) (slot : Slot) (f : Warp → ClausePos → Group → MatReq) : Res :=
  warpOp i s fun wk w c =>
    match kget s.groups w.gk with
    | none => trapRes s cOperand c.act
    | some g =>
      let sl := slot.map (·.toNat)
      let q := f w c g
      if !s.holdsTiles w.gk || !q.operand then trapRes s cOperand c.act
      else if decide (Config.matrixQueue ≤ g.mq.length) || slotFull w sl || s.acqPending (.warp wk) then waitRetry s
      else if !q.pair then trapRes s cPairing c.act
      else if collective && c.act != lanesFull w.width then trapRes s cConvergence c.act
      else match q.mis with
        | some va => trapRes s cMisaligned c.act va
        | none =>
          let s := s.setWarp wk ((w.up sl).advance c s.insnLen)
          let op := q.rows.map fun _ => s.opNo
          let s := match q.rows with
            | some (wr, es) => s.addOp (s.warpAcc wk w c (.tile wr 0) es none)
            | none => s
          let e : MEnt := { id := s.opNo, wk := wk, insn := s.ctl.insn, work := q.work, slot := sl, pipe := none, op := op }
          .next (s.bumpOp.modGroup w.gk fun g =>
            let g := { g with mq := g.mq ++ [e] }
            match q.tag with
            | some (t, x) => g.setItag t x
            | none => g)

/-- Address and stride of TLD and TST, and a misaligned one (09 R282). -/
def matAddr (w : Warp) (a : SReg) : Nat := sval w.s true a.toNat
def matMis (addr stride align : Nat) : Option Nat := if addr % align != 0 || stride % align != 0 then some addr else none

/-- TLD (09 R282). -/
def execTld (t : BitVec 4) (a b : SReg) (darned : Bool) (ty : BitVec 4) (rows : BitVec 7) (sp acc : Bool) (slot : Slot) (s : State) : Res :=
  matIssue (.tld t a b darned ty rows sp acc slot) s true slot fun w _ _ =>
    let n := rows.toNat + 1
    let addr := matAddr w a
    let stride := sval w.s false b.toNat
    { operand := !(acc && ty == 3 && decide (64 < n)), pair := true,
      mis := matMis addr stride (if darned && ty != 9 then 32 else 16),
      tag := some (t.toNat, tagOf false acc sp ty.toNat),
      work := .tld t.toNat darned ty.toNat n sp acc,
      rows := some (false, rowElems addr stride n (memRowBytes ty.toNat acc) (darned && ty != 9)) }

/-- TST (09 R283). -/
def execTst (t : BitVec 4) (a b : SReg) (rows : BitVec 7) (slot : Slot) (s : State) : Res :=
  matIssue (.tst t a b rows slot) s true slot fun w _ g =>
    let n := rows.toNat + 1
    let addr := matAddr w a
    let stride := sval w.s false b.toNat
    let tag := g.itag t.toNat
    let fmt := tagFmt tag
    { operand := true, pair := tagValid tag && !(tagAcc tag && fmt == 3 && decide (64 < n)),
      mis := matMis addr stride (if tfScaled fmt && fmt != 9 then 32 else 16), tag := none,
      work := .tst t.toNat n, rows := some (true, rowElems addr stride n (memRowBytes fmt (tagAcc tag))) }

/-- TZERO (09 R285). -/
def execTzero (t : BitVec 4) (k : BitVec 2) (s : State) : Res :=
  matIssue (.tzero t k) s false none fun _ _ _ =>
    { operand := true, pair := true, mis := none,
      tag := some (t.toNat, match k.toNat with
        | 0 => 0xA2
        | 1 => 0xA3
        | _ => 0),
      work := .tzero t.toNat k.toNat, rows := none }

/-- TCVT (09 R286). -/
def execTcvt (d a : BitVec 4) (ty : BitVec 4) (rm : BitVec 3) (c0 : BitVec 8) (sat : Bool) (slot : Slot) (s : State) : Res :=
  matIssue (.tcvt d a ty rm c0 sat slot) s false slot fun _ _ g =>
    let c := 8 * c0.toNat
    { operand := d != a && decide (c + 128 ≤ tfK ty.toNat) && (!tfScaled ty.toNat || c % 24 == 0),
      pair := g.itag a.toNat == 0xA2, mis := none, tag := some (d.toNat, tagOf false false false ty.toNat),
      work := .tcvt d.toNat a.toNat ty.toNat rm.toNat c sat, rows := none }

/-- Words of the data or of the hem of a tile (09 R287). -/
def regionWords (hem : Bool) : Nat := if hem then 1024 else 16384

/-- TMOV from vector registers to a tile (09 R287, FN 0). -/
def execTmovVt (t : BitVec 4) (a : VReg) (ra : Bool) (b : SReg) (ty : BitVec 4) (n : BitVec 3) (hem sp acc form : Bool)
    (slot : Slot) (s : State) : Res :=
  matIssue (.tmovVt t a ra b ty n hem sp acc form slot) s false slot fun w c _ =>
    let cnt := 2 ^ n.toNat
    let w0 := sval w.s false b.toNat
    { operand := decide (w0 + cnt * w.width ≤ regionWords hem), pair := true, mis := none,
      tag := some (t.toNat, tagOf false acc sp ty.toNat),
      work := .tmovVt t.toNat ty.toNat hem sp acc form
        ((lanesOf c.act).flatMap fun l => (List.range cnt).map fun i => (w0 + i * w.width + l, w.vget (a.toNat + i) l)),
      rows := none }

/-- TMOV from a tile to vector registers (09 R287, FN 1). -/
def execTmovTv (d : VReg) (t : BitVec 4) (b : SReg) (n : BitVec 3) (hem : Bool) (slot : BitVec 3) (s : State) : Res :=
  matIssue (.tmovTv d t b n hem slot) s false (some slot) fun w c _ =>
    let cnt := 2 ^ n.toNat
    let w0 := sval w.s false b.toNat
    { operand := decide (w0 + cnt * w.width ≤ regionWords hem), pair := true, mis := none, tag := none,
      work := .tmovTv t.toNat hem
        ((lanesOf c.act).flatMap fun l => (List.range cnt).map fun i => (d.toNat + i, l, w0 + i * w.width + l)),
      rows := none }

/-- What MMA and MMAS ask of the queue (09 R288). -/
def mmaReq (d a b c : BitVec 4) (hi zc : Bool) (g : Group) : MatReq :=
  { operand := d != a && d != b, pair := mmaPairing (g.itag a.toNat) (g.itag b.toNat) (g.itag c.toNat) hi zc, mis := none,
    tag := some (d.toNat, if tagFmt (g.itag a.toNat) == 3 then 0xA3 else 0xA2),
    work := .mma d.toNat a.toNat b.toNat c.toNat hi zc, rows := none }

/-- MMA (09 R288). -/
def execMma (d a b c : BitVec 4) (hi zc : Bool) (slot : Slot) (s : State) : Res :=
  matIssue (.mma d a b c hi zc slot) s true slot fun _ _ g => mmaReq d a b c hi zc g

/-- MMAS (09 R288): it differs in the occupancy of the array alone (R271, R273). -/
def execMmas (d a b c : BitVec 4) (hi zc : Bool) (slot : Slot) (s : State) : Res :=
  matIssue (.mmas d a b c hi zc slot) s true slot fun _ _ g => mmaReq d a b c hi zc g

/-! ### The pipes (09 R275, R276) -/

/-- Tiles that an entry reads, and tiles that it writes. -/
def MEnt.reads (e : MEnt) : List Nat :=
  match e.work with
  | .tst t _ => [t]
  | .tcvt d a .. => [d, a]
  | .tmovVt t .. => [t]
  | .tmovTv t _ _ => [t]
  | .mma _ a b c _ zc => if zc then [a, b] else [a, b, c]
  | _ => []
def MEnt.writesTiles (e : MEnt) : List Nat :=
  match e.work with
  | .tld t .. => [t]
  | .tzero t _ => [t]
  | .tcvt d .. => [d]
  | .tmovVt t .. => [t]
  | .mma d .. => [d]
  | _ => []

/-- The kind of pipe of an entry: 0 array, 1 load, 3 store, 4 tile port. Pipes 1 and 2 are the load pipes. -/
def MEnt.pipeKind (e : MEnt) : Nat :=
  match e.work with
  | .tld .. => 1
  | .tst .. => 3
  | .tcvt .. => 0
  | .mma .. => 0
  | _ => 4
def pipeKindOf (p : Nat) : Nat := if p == 2 then 1 else p

/-- Whether an earlier entry holds a later one (09 R275). -/
def MEnt.holds (e l : MEnt) : Bool :=
  e.writesTiles.any (fun t => l.reads.contains t || l.writesTiles.contains t) || e.reads.any fun t => l.writesTiles.contains t

/-- The oldest entry of a queue that waits for a kind of pipe, when it may start. -/
def startable (kind : Nat) (before : List MEnt) : List MEnt → Option MEnt
  | [] => none
  | e :: r =>
    if e.pipe == none && e.pipeKind == kind then (if before.any fun x => x.holds e then none else some e)
    else startable kind (before ++ [e]) r

/-- Cluster of a group: that of its cores. -/
def Group.cluster (g : Group) : Nat := g.cores.headD 0 / 4

/-- A cluster's matrix unit. -/
def State.cluster (s : State) (c : Nat) : Cluster := kgetD s.clus c Cluster.reset
def State.modCluster (s : State) (c : Nat) (f : Cluster → Cluster) : State := { s with clus := kset s.clus c (f (s.cluster c)) }

/-- The entry that a free pipe starts, round-robin among groups (09 R276). -/
def State.pickEntry (s : State) (cl pipe : Nat) : Option (Nat × MEnt) :=
  let gs := (s.groups.filter fun e => e.2.cluster == cl).filterMap fun e => (startable (pipeKindOf pipe) [] e.2.mq).map fun x => (e.1, x)
  let last := sget 0 (s.cluster cl).rr pipe
  match gs.find? fun e => decide (last < e.1) with
  | some e => some e
  | none => gs.head?

/-- An entry with a change. -/
def State.modEnt (s : State) (gk id : Nat) (f : MEnt → MEnt) : State :=
  s.modGroup gk fun g => { g with mq := g.mq.map fun e => if e.id == id then f e else e }

/-- The data of a TST, read from its tile at its queue position; its writes outside a lined front region publish the
group (10 R309). -/
def State.startTst (s : State) (gk op : Nat) (t : Tile) (n : Nat) : State :=
  match kget s.ops op with
  | none => s
  | some o =>
    let bytes := (List.range n).flatMap t.storeRow
    let per := o.elems.length / n
    let es := ((List.range o.elems.length).zip o.elems).map fun x =>
      { x.2 with data := BitVec.ofNat 64 (leNat ((bytes.drop (8 * (x.2.reg * per + x.1 % per))).take 8)) }
    let s := { s with ops := kset s.ops op { o with elems := es } }
    let s := if es.any fun e => !s.inFront o.ctx e.va then s.modGroup gk fun g => { g with pub := true } else s
    s.transOp op

/-- MATRIX_PIPE_START (09 R276): a free pipe starts an entry; a TLD or TST translates its requests. -/
def execMatrixPipeStart (cluster pipe : Nat) (s : State) : Res :=
  if 4 < pipe || khas (s.cluster cluster).pipes pipe then .next s
  else match s.pickEntry cluster pipe with
    | none => .next s
    | some (gk, e) =>
      let s := s.modCluster cluster fun c => { c with pipes := kset c.pipes pipe (gk, e.id), rr := kset c.rr pipe gk }
      let s := s.modEnt gk e.id fun e => { e with pipe := some pipe }
      match e.work, e.op with
      | .tld .., some k => .next (s.transOp k)
      | .tst t n, some k =>
        match kget s.groups gk with
        | some g => .next (s.startTst gk k (g.tile t) n)
        | none => .next s
      | _, _ => .next s

/-! ### Completion (09 R275) -/

/-- Serves at their homes the elements of an operation that satisfy a condition. -/
def State.serveWhere (s : State) (k : Nat) (f : Elem → Bool) : State :=
  match kget s.ops k with
  | none => s
  | some o => ((List.range o.elems.length).zip o.elems).foldl (fun s x => if f x.2 && !x.2.done then s.serve k x.1 else s) s

/-- An entry leaves its queue and its pipe; its flags reach the warp, its slot falls, and the warp may retire. -/
def State.endEntry (s : State) (cl pipe gk : Nat) (e : MEnt) (flags : Nat) : State :=
  let s := match e.op with
    | some k => { s with ops := kdel s.ops k }
    | none => s
  let s := s.modCluster cl fun c => { c with pipes := kdel c.pipes pipe }
  let s := s.modGroup gk fun g => { g with mq := g.mq.filter fun x => x.id != e.id }
  let s := s.modWarp e.wk fun w => (w.flag flags).down e.slot
  (s.pump (.warp e.wk)).tryRetire e.wk

/-- The rows of a TLD as bytes, from the elements of its operation. -/
def rowsOf (o : Op) (n : Nat) : List (List Byte) :=
  (List.range n).map fun r => (o.elems.filter fun e => e.reg == r).flatMap fun e => leBytes 8 (e.got.getD 0).toNat

/-- At most fuel rows of a TLD are read (09 R282): whether every row is in. -/
def State.tldRows (s : State) (k n : Nat) : Nat → State × Bool
  | 0 => (s, false)
  | fuel + 1 =>
    match kget s.ops k with
    | none => (s, false)
    | some o =>
      match o.kind with
      | .acc (.tile false row) =>
        let s := s.serveWhere k fun e => e.reg == row && e.swap == 0
        let s := s.serveWhere k fun e => e.reg == row
        let s := s.serveWhere k fun e => e.reg == row
        match kget s.ops k with
        | none => (s, false)
        | some o =>
          if !((o.elems.filter fun e => e.reg == row).all fun e => e.done || o.needless e) then (s, false)
          else if n ≤ row + 1 then (s, true)
          else
            let s := { s with ops := kset s.ops k { o with kind := .acc (.tile false (row + 1)) } }
            (s.transOp k).tldRows k n fuel
      | _ => (s, false)

/-- The words of a TMOV enter a tile (09 R287). -/
def tmovTile (t : Tile) (ty : Nat) (hem sp acc form : Bool) (words : List (Nat × Word)) : Tile :=
  let tag := tagOf form acc sp ty
  let b : Tile := if tagIssue t.tag == tagIssue tag then t else { t with data := [], hem := [] }
  let put := fun (m : Memory) => words.foldl (fun m x => mwrite m (4 * x.1) (leBytes 4 x.2.toNat)) m
  if hem then { b with tag := tag, hem := put b.hem } else { b with tag := tag, data := put b.data }

/-- What an entry without memory requests does to its group's tiles, and its flags. -/
def matEffect (g : Group) (w : MWork) : Group × Nat :=
  match w with
  | .tzero t k => (g.putTile t { Tile.empty with tag := match k with
      | 0 => 0xA2
      | 1 => 0xA3
      | _ => 0 }, 0)
  | .tcvt d a ty rm c0 sat =>
    let r := tcvtTile (g.tile d) (g.tile a) ty rm c0 sat
    (g.putTile d r.1, r.2)
  | .tmovVt t ty hem sp acc form words => (g.putTile t (tmovTile (g.tile t) ty hem sp acc form words), 0)
  | .mma d a b c hi zc =>
    let r := mmaTile (g.tile a) (g.tile b) (g.tile c) hi zc
    (g.putTile d r.1, r.2)
  | _ => (g, 0)

/-- The registers that a TMOV to vector registers writes. -/
def tmovRegs (t : Tile) (hem : Bool) (dst : List (Nat × Nat × Nat)) (w : Warp) : Warp :=
  dst.foldl (fun w d => w.vset d.1 d.2.1 (BitVec.ofNat 32 (mnum (if hem then t.hem else t.data) (4 * d.2.2) 4))) w

/-- MATRIX_ENTRY_COMPLETE (09 R275, R282 to R288): the entry on a pipe does its work, a TLD at most rows rows of it. -/
def execMatrixEntryComplete (cluster pipe rows : Nat) (s : State) : Res :=
  match kget (s.cluster cluster).pipes pipe with
  | none => .next s
  | some (gk, id) =>
    match (kget s.groups gk).bind fun g => (g.mq.find? fun e => e.id == id).map fun e => (g, e) with
    | none => .next s
    | some (g, e) =>
      match e.work, e.op with
      | .tld t darned ty n sp acc, some k =>
        let (s, done) := s.tldRows k n rows
        if !done then .next s
        else match kget s.ops k with
          | none => .next s
          | some o =>
            let r := tldTile darned ty sp acc (rowsOf o n)
            .next ((s.modGroup gk fun g => g.putTile t r.1).endEntry cluster pipe gk e r.2)
      | .tst _ _, some k =>
        let s := s.serveWhere k fun _ => true
        match kget s.ops k with
        | none => .next s
        | some o => if o.allDone && o.hold.isEmpty && o.want.isEmpty then .next (s.endEntry cluster pipe gk e 0) else .next s
      | .tmovTv t hem dst, _ =>
        .next ((s.modWarp e.wk (tmovRegs (g.tile t) hem dst)).endEntry cluster pipe gk e 0)
      | w, _ =>
        let r := matEffect g w
        .next ((s.setGroup gk r.1).endEntry cluster pipe gk e r.2)

end Sys2Proof.Machine
end

