-- ==== Sys2Proof/Machine/Windows.lean ====
section
/-! DEFINITION. Events of cores and warps (02 R26, R27, R32, R40, R52, R53; 04 R99; 07 R209, R236; 08 R246, R248;
15 R380, R390): windows, resumptions, grants, landings, mailbox arrivals, stuck groups. -/

namespace Sys2Proof.Machine

open Host

/-! ### Windows (02 R26, R27) -/

/-- Whether a warp is ready: the wait mask of its next clause is clear, and it did not yield (06 R159). -/
def State.ready (s : State) (w : Warp) : Bool :=
  s.issuable w && !w.yield &&
    match w.inClause with
    | some _ => true
    | none =>
      if w.swWait && !w.slotsClear then false
      else match w.frontier with
        | none => false
        | some f => match s.fetchLine w f with
          | .ok line =>
            let h := line (wordIx f)
            !(h != 0 && headerOk line (wordIx f) && w.waitsOn (hdrWait h))
          | _ => true

/-- Ready warps of a slot, in ascending packing position. -/
def State.readyIn (s : State) (core slot : Nat) : List Nat :=
  (s.warps.map (·.1)).filter fun k => wkCore k == core && wkSlot k == slot && match kget s.warps k with
    | some w => s.ready w
    | none => false

/-- The slots of a quad in the order in which the arbiter considers them, and which are out of turn (02 R27): round-robin
after the slot granted last; the choice of the step takes the supervisor's window out of turn when one is allowed. -/
def State.grantOrder (s : State) (core quad : Nat) : List (Nat × Bool) :=
  let c := s.core core
  let p := kgetD c.ptrs quad 3
  (if quad == 3 && s.choice % 2 == 1 && !c.oot then [(15, true)] else []) ++
    (List.range 4).map fun i => (4 * quad + (p + 1 + i) % 4, false)

/-- The pointer of a quad and the mark of an out-of-turn window after a grant. -/
def Core.afterGrant (c : Core) (quad slot : Nat) (oot : Bool) : Core :=
  if oot then { c with oot := true }
  else { c with ptrs := kset c.ptrs quad (slot % 4), oot := if quad == 3 && slot != 15 then false else c.oot }

/-- A passed boundary ends the YIELDs that stood before it (06 R159): those of the quad's warps in a state t. -/
def State.clearYields (s t : State) (core quad : Nat) : State :=
  let old := fun (k : Nat) => match kget t.warps k with
    | some w => w.yield
    | none => false
  { s with warps := kmap (fun k (w : Warp) => if wkCore k == core && slotQuad (wkSlot k) == quad && old k then { w with yield := false } else w) s.warps }

/-- The first slot of a list that holds ready warps is to take the window: its ready warps are to issue one instruction each,
in ascending packing position. When no slot is left the boundary has passed. -/
def State.openWindow (s : State) (core quad : Nat) : List (Nat × Bool) → State
  | [] => { s with ctl := { s.ctl with grant := none } }.clearYields s core quad
  | x :: r => match s.readyIn core x.1 with
    | [] => s.openWindow core quad r
    | k :: ks => { s with ctl := { s.ctl with issue := s.ctl.issue ++ (k :: ks).map Agent.warp,
                                              grant := some { core := core, quad := quad, slot := x.1, oot := x.2, rest := r } } }

/-- A window in which nothing issues takes no cycle and is no grant: the next slot is tried (02 R26). -/
def State.nextWindow (s : State) : State :=
  match s.ctl.issue, s.ctl.grant with
  | [], some g => s.openWindow g.core g.quad g.rest
  | _, _ => s

/-- Whether a warp has issued from one state to the next: it has changed in something other than a demand event that holds
it, or has gone. A warp that waits is not ready, and has not (02 R56). -/
def State.hasIssued (s t : State) (wk : Nat) : Bool :=
  (kget s.warps wk).map (fun w => { w with hold := none }) != (kget t.warps wk).map fun w => { w with hold := none }

/-- The grant counts once a warp of the window issues: the arbiter's pointer moves and YIELDs end (02 R26, R27). -/
def State.countGrant (s t : State) : State :=
  match t.ctl.cur, t.ctl.grant with
  | some (.warp wk), some g =>
    if s.hasIssued t wk then
      (({ s with ctl := { s.ctl with grant := none } }).modCore g.core fun c => c.afterGrant g.quad g.slot g.oot).clearYields t g.core g.quad
    else s
  | _, _ => s

/-- WINDOW_GRANT (02 R27): cycles pass, in which bounds of RCWs and counts of timeouts are reached (02 R32, R52), and the quad's next window goes to a slot with a ready warp. The leases that a mending
core times expire as its count reaches them (03 R80). -/
def execWindowGrant (u : IssueUnit) (elapsed : Nat) (s : State) : Res :=
  match u with
  | .quad core quad =>
    if Config.cores ≤ core || 4 ≤ quad then .next s
    else
      let s := s.modCore core fun c => { c with cycles := c.cycles + elapsed }
      let s := (s.rcwExpire core).wanyAll (fun k => wkCore k == core) elapsed
      .next (s.openWindow core quad (s.grantOrder core quad))
  | .mend m =>
    match kget s.mends m with
    | none => .next s
    | some x =>
      let s := (s.setMend m { x with cycles := x.cycles + elapsed }).expireLeases m
      if x.halted then .next s else .next { s with ctl := { s.ctl with issue := s.ctl.issue ++ [Agent.mend m] } }

/-! ### Reconvergence, wait-any and grants -/

/-- RCW_TIMEOUT (02 R32): the bound of the open RCW has expired. -/
def execRcwTimeout (warp : Nat) (s : State) : Res :=
  match kget s.warps warp with
  | none => .next s
  | some w =>
    match w.rcw with
    | none => .next s
    | some r =>
      if r.bound != 0 && decide (r.bound ≤ r.elapsed (s.core (wkCore warp)).cycles) && s.groupIssues w then
        .next (s.setWarp warp (w.rcwEnd r false))
      else .next s

/-- WANY_RESUME (02 R52, R53). -/
def execWanyResume (warp : Nat) (s : State) : Res := .next (s.wanyEval warp 0)

/-- Whether a timeout binding of a parked WANY has reached its count (02 R50). -/
def State.wanyLate (s : State) (wk : Nat) : Bool := match kget s.warps wk with
  | none => false
  | some w => match w.park with
    | .wany m _ base since _ => (w.selected m).any fun i =>
        ebKind (w.eb64 i) == 5 && s.ebHolds wk w (w.eb64 i) (base + ((s.core (wkCore wk)).cycles - since))
    | _ => false

/-- WANY_TIMEOUT (02 R50, R52): the count of a timeout binding is reached. -/
def execWanyTimeout (warp : Nat) (s : State) : Res := .next (if s.wanyLate warp then s.wanyEval warp 0 else s)

/-- REGISTER_GRANT (02 R40): the oldest waiting request of the quad is granted once the free blocks cover it. -/
def execRegisterGrant (core quad : Nat) (s : State) : Res :=
  match (s.core core).xq.find? fun r => r.quad == quad with
  | none => .next s
  | some r =>
    if s.blocksFit core quad r.wk r.k then
      let s := s.modCore core fun c => { c with xq := c.xq.erase r }
      .next (s.modWarp r.wk fun w => w.granted r.k r.nb)
    else .next s

/-! ### Results and homes -/

/-- The landing of an operation that has every element (04 R99; 07 R242): its registers are written and its slot falls. -/
def State.landOp (s : State) (k : Nat) : State :=
  match kget s.ops k with
  | none => s
  | some o =>
    if !(o.isAcc && o.allDone && o.hold.isEmpty && o.want.isEmpty) || s.acqEarly k o then s
    else match o.kind with
      | .acc (.pginv ctx span) => if s.sentUnder k ctx span then s else s.finishOp k o
      | .acc .leaseWr => s.finishOp k o
      | .acc .recRd => s
      | .acc (.tile ..) => s
      | _ => if o.lands then s.finishOp k o else s.settleOp k

/-- REGISTER_RESULT_LANDING (04 R99; 07 R191): one element is served at its home, or every one and the results land. -/
def execRegisterResultLanding (op : Nat) (elem : Option Nat) (s : State) : Res :=
  match kget s.ops op with
  | none => .next s
  | some o =>
    if !o.isAcc then .next s
    else match elem with
      | some i => .next (((s.serve op i).pumpOp op).settleOp op)
      | none => .next (((s.serveWhere op fun e => o.opened e).pumpOp op).landOp op)

/-- APPLIED_AT_HOME (08 R246): one element of a store or atomic is applied at its home. -/
def execAppliedAtHome (op elem : Nat) (s : State) : Res :=
  match kget s.ops op with
  | none => .next s
  | some o => if o.isAcc then .next (((s.serve op elem).pumpOp op).settleOp op) else .next s

/-- L1_SECTOR_DROP (08 R248). -/
def execL1SectorDrop (core sector : Nat) (s : State) : Res :=
  if core < Config.cores then .next (s.modCore core fun c => { c with l1 := kdel c.l1 sector }) else .next s

/-- ASYNC_OP_COMPLETE (07 R209, R219): an operation advances by n steps, or with 0 as far as it can. -/
def execAsyncOpComplete (op n : Nat) (s : State) : Res :=
  match kget s.ops op with
  | none => .next s
  | some o => .next (s.asyncRun op (if n == 0 then o.asyncFuel else n))

/-- The operation that writes a completion word (07 R210), at copy engine 0 (log 108). -/
def cwOp (wk : Nat) (w : Warp) (b : Batch) (c : ComplWord) : Op :=
  { who := .warp wk, ctx := w.ctx, gk := w.gk, insn := c.insn, kind := .async (.word c.addr c.val c.add) 0 [] [] 0 b.seq,
    lanes := 0, slot := none, elems := [], hold := [], want := [], epoch := 0 }

/-- The first batch, in seal order, whose operations are complete and whose completion word is still to be written: the
batch, its word, and the batches with that word taken (07 R210). -/
def State.readyWord (s : State) (warp : Nat) : List Batch → Option (Batch × ComplWord × List Batch)
  | [] => none
  | b :: r =>
    let later := (s.readyWord warp r).map fun x => (x.1, x.2.1, b :: x.2.2)
    match b.cw with
    | some c => if s.batchOps warp b.seq then later else some (b, c, { b with cw := none } :: r)
    | none => later

/-- BATCH_FINISH (07 R209, R210): the oldest unfinished batch finishes, if its operations are complete and its completion
word is home; else the first batch whose own operations are complete writes its word. -/
def execBatchFinish (warp : Nat) (s : State) : Res :=
  match kget s.warps warp with
  | none => .next s
  | some w =>
    match w.sealed with
    | [] => .next s
    | b :: r =>
      if b.cw.isNone && !s.batchOps warp b.seq then .next ((s.setWarp warp { w with sealed := r }).tryRetire warp)
      else match s.readyWord warp w.sealed with
        | some (b, c, l) =>
          let s := s.setWarp warp { w with sealed := l }
          let s := if w.handler then s else s.modGroup w.gk fun g => { g with pub := true }
          .next (s.addOp (cwOp warp w b c))
        | none => .next s

/-! ### Mailboxes (07 R236, R237; 02 R55) -/

/-- The saved warp that was saved from a position of a core: its group and index. -/
def State.savedFrom (s : State) (core pos : Nat) : Option (Nat × Nat) :=
  s.groups.findSome? fun e =>
    match e.2.phase with
    | .saved _ => (e.2.wks.find? fun x => x.2 == core * 128 + pos).map fun x => (e.1, x.1)
    | .reserved (some _) => (e.2.wks.find? fun x => x.2 == core * 128 + pos).map fun x => (e.1, x.1)
    | _ => none

/-- The slot that a send names falls, while its sender stands where it was. -/
def State.sentDown (s : State) (x : Send) : State :=
  s.modWarp x.from_ fun w => if w.gk == x.gk && w.ix == x.ix then w.down x.slot else w

/-- A message reaches the core of its receiver once a mailbox slot is free there: it enters the mailbox, is held for a saved
warp, or is discarded (07 R236, R237; 02 R55). -/
def State.deliver (s : State) (x : Send) : Option State :=
  let wk := x.core * 128 + x.msg.tgt
  let s' := { s with sends := s.sends.erase x }
  if Config.mailboxSlots ≤ (s.core x.core).mbox.length then none
  else match kget s.warps wk with
  | some w =>
    if w.handler then
      some ((s'.modCore x.core fun c => { c with saved := c.saved ++ [(w.gk, w.ix, x.msg)] }).sentDown x)
    else some (((s'.modCore x.core fun c => { c with mbox := c.mbox ++ [x.msg] }).modWarp wk fun w => w.setPend 16).sentDown x)
  | none =>
    match s.savedFrom x.core x.msg.tgt with
    | some (gk, ix) => some ((s'.modCore x.core fun c => { c with saved := c.saved ++ [(gk, ix, x.msg)] }).sentDown x)
    | none => some (s'.sentDown x)

/-- MAILBOX_ARRIVAL: message n of those on their way, unless an earlier one of its sender is. -/
def execMailboxArrival (n : Nat) (s : State) : Res :=
  match s.sends[n]? with
  | none => .next s
  | some x =>
    if (s.sends.take n).any fun y => y.gk == x.gk && y.ix == x.ix then .next s
    else match s.deliver x with
      | some s' => .next s'
      | none => .next s

/-- Receive status of a trap record (15 R380), from its word 2. -/
def recordStatus (words : List Word) : Word :=
  let x := (words.getD 2 0).toNat
  BitVec.ofNat 32 (2 ^ 31 + bitsOf x 24 8 * 2 ^ 16 + bitsOf x 20 4 * 2 ^ 12 + bitsOf x 17 3 * 2 ^ 9 + 0x100)

/-- TRAP_RECORD_DELIVERY (15 R380): the oldest record of a core enters its mailbox for the supervisor. -/
def execTrapRecordDelivery (core : Nat) (s : State) : Res :=
  let c := s.core core
  match c.traps with
  | [] => .next s
  | ws :: r =>
    if decide (Config.mailboxSlots ≤ c.mbox.length) || !khas s.warps (supKey core) then .next s
    else
      let m : Msg := { status := recordStatus ws, tgt := 120, words := ws }
      .next ((s.modCore core fun c => { c with traps := r, mbox := c.mbox ++ [m] }).modWarp (supKey core) fun w => w.setPend 16)

/-! ### Demand events (03 R77) -/

/-- DEMAND_RECORD_POST: requests held at their source for a full queue post their records. -/
def execDemandRecordPost (core : Nat) (s : State) : Res :=
  match kget s.mends core with
  | some m => if m.dem.length < Config.demandEntries then .next s.postWaiting else .next s
  | none => .next s

/-- DEMRESP_REPLAY (03 R77 step 5; 07 R235). -/
def execDemrespReplay (core tag : Nat) (s : State) : Res := .next (s.demResp core tag false 0)

/-- DEMRESP_DECLINE (03 R77 step 6; 07 R235). -/
def execDemrespDecline (core tag : Nat) (cause : Byte) (s : State) : Res := .next (s.demResp core tag true cause.toNat)

/-! ### Stuck groups (15 R390) -/

/-- The barrier tokens that a parked warp waits on, when it can be stuck. -/
def Warp.stuckOn (w : Warp) : Option Nat :=
  match w.park with
  | .barg b => some (2 ^ b)
  | .regrp .. => some 0
  | .wany m _ _ _ _ =>
    let l := w.selected m
    if w.won.isNone && l.all fun i => ebKind (w.eb64 i) == 1 then some (l.foldl (fun a i => a ||| 2 ^ (ebSel (w.eb64 i) % 16)) 0) else none
  | _ => none

/-- Whether the warps of a group are all parked so, with nothing outstanding: the barriers that they wait on. -/
def State.stuckMask (s : State) (g : Group) : Option Nat :=
  let ws := g.wks.map fun e => kget s.warps e.2
  let quiet := g.mq.isEmpty && g.wks.all fun e => (s.asyncOps e.2).isEmpty
  if !quiet || g.wks.isEmpty then none
  else ws.foldl (fun a w => match a, w with
    | some a, some w => if w.live == 0 then none else w.stuckOn.map (a ||| ·)
    | _, _ => none) (some 0)

/-- Whether a group has been stuck for the 65,536 cycles of its lowest core. -/
def State.stuckLong (s : State) (g : Group) : Bool := match g.stuck with
  | some t => (s.stuckMask g).isSome && decide (t + Config.stuckCycles ≤ (s.core (g.cores.headD 0)).cycles)
  | none => false

/-- A seam member is stuck only when every resident member is stuck or held: of the members, this device sees its own (15
R390; log 98). -/
def State.seamStuck (s : State) (gk : Nat) : Bool :=
  match s.seamOf gk with
  | none => true
  | some (r, _) => match kget s.seams r.id with
    | none => true
    | some m => m.locals.all fun e => match kget s.groups e.2 with
      | some g => !g.phase.resident || g.phase == .held || s.stuckLong g
      | none => true

/-- The cycle since which each running group has been stuck, kept up to date after every step (log 1). -/
def State.markStuck (s : State) : State :=
  { s with groups := kmap (fun _ (g : Group) =>
      if g.phase == .run && (s.stuckMask g).isSome then
        (match g.stuck with
         | some _ => g
         | none => { g with stuck := some (s.core (g.cores.headD 0)).cycles })
      else (if g.stuck.isSome then { g with stuck := none } else g)) s.groups }

/-- STATUS of a grid killed as stuck (15 Table 15-4). -/
def statusStuck : Nat := 0x230

/-- STUCK_GROUP_TIMEOUT (15 R390): after 65,536 cycles the context is killed with cause 0x30, ORIGIN 3. -/
def execStuckGroupTimeout (group : Nat) (s : State) : Res :=
  match kget s.groups group with
  | none => .next s
  | some g =>
    match s.stuckMask g with
    | some mask =>
      if s.stuckLong g && s.seamStuck group then
        .next ((s.recordGroup group (TrapInfo.sched cKilled mask 0) 1).killGrid (gkGrid group) statusStuck)
      else .next s
    | none => .next s

end Sys2Proof.Machine
end

