-- ==== Sys2Proof/Machine/Packets.lean ====
section
/-! DEFINITION. Queues and packets (10 R289 to R299; 15 R394, R395): parsing, the creation of grids, completion. -/

namespace Sys2Proof.Machine

open Host

/-! ### The command window (10 Table 10-1) -/

/-- Offset of slot i of queue q, and of its completion record. -/
def packetAt (q i : Nat) : Nat := q * 0x40000 + 64 * i
def recordAt (q i : Nat) : Nat := 0x5000000 + q * 0x10000 + 16 * i

/-- n bytes of the window's memory as a number. -/
def State.winNum (s : State) (a n : Nat) : Nat := mnum s.sched.win a n

/-- Bytes written in the window's memory. -/
def State.winWrite (s : State) (a : Nat) (bs : List Byte) : State :=
  { s with sched := { s.sched with win := mwrite s.sched.win a bs } }

/-- The 64 bytes of a packet as a number. -/
def State.packetBits (s : State) (q : Nat) : Nat := s.winNum (packetAt q (s.queue q).rdidx.toNat) 64

/-! ### Header fields (10 Table 10-3) -/

def pkTag (p : Nat) : Nat := bitsOf p 0 32
def pkCidx (p : Nat) : Nat := bitsOf p 32 12
def pkCen (p : Nat) : Bool := bitAt p 44
def pkFlags (p : Nat) : Nat := bitsOf p 48 8
def pkAfter (p : Nat) : Bool := bitAt p 48
def pkCrec (p : Nat) : Bool := bitAt p 49
def pkType (p : Nat) : Nat := bitsOf p 56 3
def pkPar (p : Nat) : Bool := bitAt p 63
/-- Doubleword i of a packet; the payload starts at 1. -/
def pkWord (p i : Nat) : Nat := bitsOf p (64 * i) 64
/-- Whether the bytes from a are zero. -/
def pkZeroFrom (p a : Nat) : Bool := p / 2 ^ (8 * a) == 0

/-- Saved groups that a resume brought, that have not been restored and are not gone (12 R359 step 4). -/
def State.resuming (s : State) : List Nat := s.mgmt.fromImage.filter fun gk => match kget s.groups gk with
  | some g => g.phase != .gone
  | none => false

/-- Whether a queue is parsing a packet or may: it is enabled, or finishes the packet it was parsing when it was
disabled (10 R290); it is not stopped, and no checkpoint stops its partition (10 R319). -/
def State.parses (s : State) (q : Nat) : Bool :=
  let r := s.queue q
  decide (q < 256) && (r.state == 1 || r.state == 2) && !(s.part r.part.toNat).stopped &&
    !s.resuming.any fun gk => s.groupPart gk == r.part.toNat

/-- Whether the packet at RDIDX is live (10 R291). -/
def State.live (s : State) (q : Nat) : Bool := pkPar (s.packetBits q) == (s.queue q).par

/-- The next state of a queue whose parse has ended: it goes on, or is disabled. -/
def Queue.idle (r : Queue) : Queue := { r with state := if r.en then 1 else 0 }

/-- The parse of the packet at RDIDX ends (10 R291): the pointer moves on, PAR inverts at the wrap. -/
def Queue.advance (r : Queue) (id : Nat) : Queue :=
  { r.skip with open_ := r.open_ ++ [(r.rdidx.toNat, id)] }.idle

/-- A packet error of a queue. -/
def State.packetError (s : State) (q err : Nat) : State := s.modQueue q fun r => r.stopAt (BitVec.ofNat 8 err)

/-- The header checks of R394: TYPE 5 to 7, then the reserved header bits and FLAGS. -/
def headerErr (p : Nat) : Option Nat :=
  if 5 ≤ pkType p then some 2
  else if bitsOf p 59 4 != 0 || bitsOf p 45 3 != 0 || bitsOf (pkFlags p) 2 2 != 0 ||
      (pkType p != 1 && bitsOf (pkFlags p) 4 4 != 0) then some 1
  else none

/-- A queue that an AFTER flag or a FENCE held goes on parsing (10 R293). -/
def State.unheld (s : State) (q : Nat) : State := s.modQueue q fun r => { r with state := 1 }

/-- What a parse does with the packet at RDIDX: nothing to do, wait in STATE 2, an error, or go on with its bits. A
packet of TYPE 5 to 7 is an error whatever type was asked for. -/
def withPacket (s : State) (q ty : Nat) (k : State → Nat → Res) : Res :=
  if !(s.parses q && s.live q) then .next s
  else
    let p := s.packetBits q
    if pkType p != ty && decide (pkType p < 5) then .next s
    else match headerErr p with
      | some e => .next (s.packetError q e)
      | none =>
        if pkAfter p && !(s.queue q).open_.isEmpty then .next (s.modQueue q fun r => { r with state := 2 })
        else k (s.unheld q) p

/-- The note of a packet that is taken, other than a LAUNCH. -/
def packetOf (s : State) (q p : Nat) (op : Option Nat) : Packet :=
  let r := s.queue q
  { q := q, slot := r.rdidx.toNat, tag := BitVec.ofNat 32 (pkTag p), par := r.par, crec := pkCrec p, cen := pkCen p,
    cidx := pkCidx p, op := op, status := 0 }

/-- A packet is taken. -/
def State.take (s : State) (q p : Nat) (op : Option Nat) : State :=
  let k := packetOf s q p op
  ({ s with sched := { s.sched with packets := s.sched.packets ++ [k] } }).modQueue q fun r => r.advance (op.getD 0)

/-! ### FENCE, COUNT, WRITE, COPY (10 R297, R298) -/

/-- Condition j of a FENCE: count word and least value. Sums are taken modulo 2^64 (log 17). -/
def fenceCond (p j : Nat) : Nat × Nat :=
  let w := bitsOf p (128 + 32 * j) 32
  (bitsOf w 20 12, (pkWord p 1 + bitsOf w 0 20) % 2 ^ 64)

/-- Errors of a FENCE: its count and its entries. -/
def fenceErr (p : Nat) : Option Nat :=
  let n := bitsOf (pkFlags p) 4 4
  if n == 0 || 12 < n || !pkZeroFrom p (16 + 4 * n) then some 3 else none

/-- FENCE_PACKET (10 R297). -/
def execFencePacket (q : Nat) (s : State) : Res :=
  withPacket s q 1 fun s p =>
    match fenceErr p with
    | some e => .next (s.packetError q e)
    | none =>
      let ok := (List.range (bitsOf (pkFlags p) 4 4)).all fun j => let c := fenceCond p j; decide (c.2 ≤ (s.count c.1).toNat)
      if ok then .next (s.take q p none) else .next (s.modQueue q fun r => { r with state := 2 })

/-- A count word with a value added. -/
def State.countAdd (s : State) (k v : Nat) : State :=
  { s with sched := { s.sched with counts := sset 0 s.sched.counts k (s.count k + BitVec.ofNat 64 v) } }

/-- COUNT_PACKET (10 R298). -/
def execCountPacket (q : Nat) (s : State) : Res :=
  withPacket s q 2 fun s p =>
    if !pkZeroFrom p 24 || pkWord p 1 / 2 ^ 12 != 0 then .next (s.packetError q 1)
    else .next ((s.countAdd (pkWord p 1) (pkWord p 2)).take q p none)

/-- An access of a queue under its PTROOT (10 R296). -/
def State.queueAcc (s : State) (q : Nat) (a : Acc) (es : List Elem) : Op :=
  { who := .queue q, ctx := queueCtx q, gk := 0, insn := s.ctl.insn, kind := .acc a, lanes := 0, slot := none, elems := es,
    hold := [], want := [], epoch := 0 }

/-- WRITE_PACKET (10 R298). -/
def execWritePacket (q : Nat) (s : State) : Res :=
  withPacket s q 3 fun s p =>
    if !pkZeroFrom p 24 then .next (s.packetError q 1)
    else if pkWord p 1 % 8 != 0 then .next (s.packetError q 4)
    else
      let k := s.opNo
      let o := s.queueAcc q .store [Elem.virt 0 (pkWord p 1) 8 (BitVec.ofNat 64 (pkWord p 2)) 0 0]
      .next (((s.take q p (some k)).addOp o).transOp k)

/-- COPY_PACKET (10 R298; 07 R216). -/
def execCopyPacket (q : Nat) (s : State) : Res :=
  withPacket s q 4 fun s p =>
    let len := pkWord p 3
    if !pkZeroFrom p 32 then .next (s.packetError q 1)
    else if pkWord p 1 % 16 != 0 || pkWord p 2 % 16 != 0 then .next (s.packetError q 4)
    else if len % 16 != 0 || len == 0 || 2 ^ 32 < len then .next (s.packetError q 5)
    else
      let k := s.opNo
      let o : Op := { s.queueAcc q .store [] with
        kind := .async (.copy (pkWord p 1) (pkWord p 2) len) 0 [] [] (s.pickEngine (s.queue q).part.toNat) 0 }
      .next ((s.take q p (some k)).addOp o)

/-! ### LAUNCH (10 R294 to R296, R304) -/

/-- The kernel descriptor that 512 bits hold (10 Table 10-6). -/
def kdescOf (d : Nat) : KDesc :=
  { code := bitsOf d 7 50 * 128, est := bitsOf d 128 32, width := 16 * 2 ^ bitsOf d 170 2, regx := bitsOf d 172 3,
    warps := bitsOf d 175 8, scratch := bitsOf d 183 9 * 4096, pair := bitAt d 200, idem := bitAt d 201,
    tile := bitAt d 202, seam := bitAt d 203, members := bitsOf d 208 4 + 1 }

/-- Reserved bits of a descriptor. -/
def kdescReserved (d : Nat) : Bool :=
  bitsOf d 0 7 != 0 || bitsOf d 57 71 != 0 || bitsOf d 160 10 != 0 || bitsOf d 192 8 != 0 || bitsOf d 204 4 != 0 ||
    bitsOf d 212 300 != 0

/-- Fields of a descriptor outside their limits, or a group that no empty core could hold (10 R295). -/
def kdescBad (bits : Nat) (d : KDesc) : Bool :=
  kdescReserved bits || (!d.seam && d.members != 1) || decide ((if d.pair then 256 else 128) * 4096 < d.scratch) ||
    d.warps == 0 || decide (240 < d.warps) || decide (6 < d.regx) ||
    !(fitsEmpty d (evenCount d) && fitsEmpty d (d.warps - evenCount d))

/-- The seam record that 512 bits hold (10 Table 10-9). -/
def seamRecOf (r : Nat) : SeamRec :=
  { id := bitsOf r 256 32, members := bitsOf r 288 4 + 1, mbase := bitsOf r 292 4,
    peers := (List.range (bitsOf r 288 4 + 1)).map fun i => bitsOf r (16 * i) 14 }

/-- Whether a seam record disagrees with its launch (10 R304). -/
def seamRecBad (r : Nat) (d : KDesc) (ngroups : Nat) : Bool :=
  bitsOf r 296 216 != 0 || (List.range 16).any (fun i => bitsOf r (16 * i + 14) 2 != 0) ||
    (seamRecOf r).members != d.members || decide ((seamRecOf r).members < (seamRecOf r).mbase + ngroups)

/-- Errors of a LAUNCH payload before its descriptor is read (10 R294; 15 R394). -/
def launchErr (p : Nat) : Option Nat :=
  let fold := pkWord p 2
  let csa := pkWord p 5
  if bitsOf fold 57 7 != 0 || bitsOf fold 12 4 != 0 || bitsOf csa 57 7 != 0 then some 1
  else if pkWord p 1 % 64 != 0 || pkWord p 7 % 64 != 0 then some 4
  else
    let n := bitsOf p 384 32
    if n == 0 || 2 ^ 24 < n then some 5 else none

/-- The 64 bytes that a parse reads at an address: the read is made once, and its bytes are kept until the parse ends. -/
def withQueueRead (s : State) (q a : Nat) (k : Nat → Res) : Res :=
  match s.ops.find? fun o => o.2.who == .queue q && o.2.kind == .acc .recRd && (o.2.elems.head?.map (·.va)) == some a with
  | some (_, o) => if o.allDone then k (packFields (o.elems.map fun e => ((e.got.getD 0).toNat, 64))) else .next s
  | none =>
    let x := s.opNo
    .next ((s.addOp (s.queueAcc q .recRd (accElems [0] 8 8 0 (fun _ => a) noData))).transOp x)

/-- The reads of a parse are dropped. -/
def State.dropReads (s : State) (q : Nat) : State :=
  { s with ops := kfilter (fun _ (o : Op) => !(o.who == .queue q && o.kind == .acc .recRd)) s.ops }

/-- The grid that a LAUNCH creates (10 R296). -/
def gridOf (s : State) (q p : Nat) (d : KDesc) (seam : Option SeamRec) : Grid :=
  let r := s.queue q
  { q := q, pslot := r.rdidx.toNat, tag := BitVec.ofNat 32 (pkTag p), par := r.par, crec := pkCrec p, cen := pkCen p,
    cidx := pkCidx p, part := r.part.toNat, ptroot := r.ptroot, foldbase := BitVec.ofNat 64 (pkWord p 2),
    savevec := BitVec.ofNat 32 (bitsOf p 416 32), args := BitVec.ofNat 64 (pkWord p 3), data := BitVec.ofNat 64 (pkWord p 4),
    csa := bitsOf (pkWord p 5) 16 41 * 65536, nframe := bitsOf (pkWord p 5) 0 16, frames := [], desc := d, seam := seam,
    ngroups := bitsOf p 384 32, nextg := 0, waits := [], fin := 0, cycles := 0, avg := none, folds := [], linings := [],
    killed := none, order := s.sched.admits }

/-- A seam that a launch brings to this device (02 R45; 10 R304). -/
def Seam.fresh (r : SeamRec) : Seam :=
  { members := r.members, peers := r.peers, locals := [], phase := .idle, answers := [], fails := 0, start := 0, retry := 0,
    dets := 0, gones := 0, told := 0, revoke := false, going := false, decs := 0, lastBusy := 0, done := false, seen := 0 }

/-- The members that a launch brings: member index and group. -/
def seamLocals (r : SeamRec) (grid n : Nat) : List (Nat × Nat) := (List.range n).map fun g => (r.mbase + g, gkey grid g)

/-- A grid id that no grid of the device has, from 1 to 2^32 - 2 (10 R296). -/
def State.freshGrid (s : State) : Nat :=
  (((List.range (s.grids.length + 1)).map fun i => (s.sched.nextGrid - 1 + i) % (2 ^ 32 - 2) + 1).find? fun id => !khas s.grids id).getD s.sched.nextGrid

/-- A grid enters the device. -/
def State.addGrid (s : State) (q p : Nat) (d : KDesc) (seam : Option SeamRec) : State :=
  let id := s.freshGrid
  let g := gridOf s q p d seam
  let s := { s with grids := kset s.grids id g, sched := { s.sched with nextGrid := id + 1, admits := s.sched.admits + 1 } }
  let s := match seam with
    | none => s
    | some r =>
      let m := match kget s.seams r.id with
        | some (m : Seam) => if m.locals.any fun e => khas s.groups e.2 || khas s.grids (gkGrid e.2) then m else Seam.fresh r
        | none => Seam.fresh r
      { s with seams := kset s.seams r.id { m with locals := m.locals ++ seamLocals r id g.ngroups } }
  (s.modQueue q fun r => r.advance id).dropReads q

/-- LAUNCH (10 R294 to R296, R304; 15 R394). -/
def execLaunch (q : Nat) (s : State) : Res :=
  withPacket s q 0 fun s p =>
    let err := fun (e : Nat) => Outcome.next ((s.packetError q e).dropReads q)
    match launchErr p with
    | some e => err e
    | none =>
      withQueueRead s q (pkWord p 1) fun bits =>
        let d := kdescOf bits
        if kdescBad bits d then err 6
        else if !d.seam then (if pkWord p 7 != 0 then err 7 else .next (s.addGrid q p d none))
        else if pkWord p 7 == 0 then err 7
        else withQueueRead s q (pkWord p 7) fun r =>
          if seamRecBad r d (bitsOf p 384 32) then err 7 else .next (s.addGrid q p d (some (seamRecOf r)))

/-! ### Completion (10 R293) -/

/-- The completion record (10 Table 10-4). -/
def recordBits (tag status : Nat) (par : Bool) (cycles : Int) : Nat :=
  packFields [(tag, 32), (status, 16), (par.toNat, 1), (0, 15), (wrapInt 64 cycles, 64)]

/-- Steps 2 and 3 of R293: the record, then the count word; the packet is no longer open. -/
def State.recordPacket (s : State) (q slot : Nat) (crec cen : Bool) (cidx bits : Nat) : State :=
  let s := if crec then s.winWrite (recordAt q slot) (leBytes 16 bits) else s
  let s := if cen then s.countAdd cidx 1 else s
  s.modQueue q fun r => { r with open_ := r.open_.eraseP fun x => x.1 == slot }

/-- Host-homed stores that must be accepted first: those of a condition on the group. -/
def State.hostOwed (s : State) (f : Nat → Bool) : Bool :=
  s.host.buf.any (fun b => f b.gk) || s.host.loose.any fun l => f l.gk

/-- A read after the stores that left the buffer, so that they are accepted (11 R327); one at a time. -/
def State.flushLoose (s : State) (f : Nat → Bool) : State :=
  if s.host.buf.any (fun b => f b.gk) || s.host.reqs.any (fun r => r.2.n == 0 && r.2.warp == none) || !s.host.up then s
  else match s.host.loose.find? fun l => f l.gk with
    | none => s
    | some l =>
      let id := s.opNo
      let s := { s.bumpOp with host := { s.host with reqs := kset s.host.reqs id { op := 0, elems := [], n := 0, warp := none, addr := l.addr } } }
      s.emit (.hostFlush id l.addr)

/-- Whether every effect of a grid has reached its home (10 R293; 15 R383 step 7). -/
def State.gridDone (s : State) (id : Nat) (g : Grid) : Bool :=
  (g.killed.isSome || g.fin == g.ngroups) && !s.ops.any (fun o => o.2.ctx == id && !o.2.landingWr && (o.2.who != Who.fold || o.2.releases)) &&
    !s.sends.any (fun x => gkGrid x.gk == id) &&
    !s.groups.any fun e => gkGrid e.1 == id && e.2.phase != .gone

/-- A grid leaves: its context's folds, linings, windows and cached translations, and its groups. What the device knows of
its seam stays until a launch brings the SEAMID again: members elsewhere may still run. -/
def State.dropGrid (s : State) (id : Nat) : State :=
  let s := (s.answerAll id).closeLinings id fun _ => true
  let s := { s with grids := kdel s.grids id, groups := kfilter (fun k _ => gkGrid k != id) s.groups,
                    ops := kfilter (fun _ (o : Op) => !(o.ctx == id && o.who == Who.fold)) s.ops,
                    mem := { s.mem with tlb := s.mem.tlb.filter fun e => e.ctx != id } }
  s.disarm id

/-- PACKET_COMPLETE (10 R293): the packet in a slot completes when every effect is home. -/
def execPacketComplete (q slot : Nat) (s : State) : Res :=
  match s.sched.packets.find? fun p => p.q == q && p.slot == slot with
  | some p =>
    if p.op.isSome then .next s
    else if s.hostOwed (· == 0) then .next (s.flushLoose (· == 0))
    else
      let s := { s with sched := { s.sched with packets := s.sched.packets.erase p } }
      .next (s.recordPacket q slot p.crec p.cen p.cidx (recordBits p.tag.toNat p.status p.par 0))
  | none =>
    match s.grids.find? fun g => g.2.q == q && g.2.pslot == slot && s.gridDone g.1 g.2 with
    | none => .next s
    | some (id, g) =>
      if s.hostOwed fun k => gkGrid k == id && k != 0 then .next (s.flushLoose fun k => gkGrid k == id && k != 0)
      else
        let s := s.dropGrid id
        .next (s.recordPacket q slot g.crec g.cen g.cidx (recordBits g.tag.toNat (g.killed.getD 0) g.par g.cycles))

/-! ### Enable and disable (10 R290) -/

/-- EN changes from 0 to 1; ERR keeps its value (log 16). -/
def State.queueOn (s : State) (q : Nat) : State :=
  if (s.queue q).en then s
  else (s.modQueue q fun r => { r with en := true, rdidx := 0, par := true, deficit := 0, state := 1 }).dropReads q

/-- EN changes from 1 to 0; the packet being parsed completes its parse first. -/
def State.queueOff (s : State) (q : Nat) : State :=
  if !(s.queue q).en then s
  else
    let busy := (s.queue q).state != 3 && s.live q
    s.modQueue q fun r => { r with en := false, state := if busy then r.state else 0 }

/-- QUEUE_ENABLE. -/
def execQueueEnable (q : Nat) (s : State) : Res := hostCmd s fun s => if q < 256 then s.queueOn q else s

/-- QUEUE_DISABLE. -/
def execQueueDisable (q : Nat) (s : State) : Res := hostCmd s fun s => if q < 256 then s.queueOff q else s

end Sys2Proof.Machine
end

