-- ==== Sys2Proof/Machine/Save.lean ====
section
/-! DEFINITION. Save and restore of groups (10 R310 to R315; 02 R55; 09 R278; 15 R392): quiescence, the entry stores and
the handler, the group frame, and the return of a saved group. -/

namespace Sys2Proof.Machine

open Host

/-! ### Frames (10 R311, Table 10-11) -/

/-- Bytes of a frame. -/
def frameSize (d : KDesc) : Nat := 0x220000 + d.warps * 0x20000
/-- Address of frame f of a grid. -/
def Grid.frameAt (g : Grid) (f : Nat) : Nat := g.csa + f * frameSize g.desc
/-- Address of the frame of warp i in frame f. -/
def Grid.warpFrame (g : Grid) (f i : Nat) : Nat := g.frameAt f + 0x220000 + i * 0x20000

/-- What an access of a frame by the device meets (16 R412): it goes on, fails with a cause at an address, is held
on a demand event, or fails at an event that the device answers itself. -/
inductive Met (α : Type) where
  | ok (x : α)
  | fail (cause detail va : Nat)
  | held (w : Wish)
  | shut (w : Wish)
  deriving DecidableEq, Repr

/-- A lease reason holds an access of a frame; every other one fails it. -/
def Met.ofEvent {α : Type} (w : Wish) : Met α := if 4 ≤ w.reason && w.reason ≤ 6 then .held w else .shut w

/-- What comes after an access of a frame that goes on. -/
def Met.bind {α β : Type} (x : Met α) (f : α → Met β) : Met β := match x with
  | .ok x => f x
  | .fail c d va => .fail c d va
  | .held w => .held w
  | .shut w => .shut w

/-- Whether the sectors at some addresses are at hand for the device's own access of a frame: the tables of their walks, no
migration of their pages (log 105), the lines that the host holds recalled (08 R257; 11 R320, R338), and their sectors filled, for a
write too (03 R72). What is waited for has been asked for. -/
def State.frameReady (s : State) (ctx : Nat) (fill : Bool) (vas : List Nat) : State × Bool :=
  match s.walkGate ctx vas with
  | (t, false) => (t, false)
  | (_, true) =>
    let homes := vas.filterMap fun va => match s.check ctx (if fill then 0 else 1) false va with
      | .ok (.loc a k) _ _ => if (s.mem.sec (a / 4096)).lost then none else some (a, k)
      | _ => none
    if homes.any fun h => s.migrates s.opNo h.1 || (s.mem.forward h.1).isSome then (s, false)
    else s.gateAll s.opNo (homes.flatMap fun h =>
      (s.mem.hostLines.filterMap fun x => if x / 2 / 32 == h.1 / 4096 then some (Place.loc (x / 2 * 128) .loc) else none) ++ [Place.loc h.1 h.2])

/-- Addresses of n sectors. -/
def sectorsFrom (va n : Nat) : List Nat := (List.range n).map fun i => va + 4096 * i

/-- 4 KiB written by the device at a virtual address, from an address of a block. -/
def State.putSector (s : State) (ctx va : Nat) (m : Memory) (off : Nat) : Met State :=
  match s.check ctx 1 false va with
  | .ok (.loc a _) _ _ =>
    if (s.mem.sec (a / 4096)).lost then .fail cUncorrectable 0 va
    else .ok { s with mem := { s.mem with bytes := mcopy s.mem.bytes a m off 4096,
                                          secs := kset s.mem.secs (a / 4096) { s.mem.sec (a / 4096) with valid := true, dirty := true } } }
  | .ok (.carve a) _ _ =>
    if s.mem.lostCarve.contains (a / 4096) then .fail cUncorrectable 0 va
    else .ok { s with mem := { s.mem with carve := mcopy s.mem.carve a m off 4096 } }
  | .ok _ _ _ => .fail cProtection 0 va
  | .prot => .fail cProtection 0 va
  | .event w => Met.ofEvent w

/-- n sectors of 4 KiB of a block written from a virtual address, up to the first that is not. -/
def State.putBlock (s : State) (ctx va : Nat) (m : Memory) : Nat → Nat → Met State
  | 0, _ => .ok s
  | n + 1, off => (s.putSector ctx (va + off) m off).bind fun s => s.putBlock ctx va m n (off + 4096)

/-- One sector of 4 KiB read from a virtual address, placed at an offset; a restore waits for any event. -/
def State.getSector (s : State) (ctx va off : Nat) : Met Memory :=
  match s.check ctx 0 false va with
  | .ok (.loc a _) _ _ =>
    if (s.mem.sec (a / 4096)).lost then .fail cUncorrectable 0 va
    else .ok (((List.range 4096).map fun i => (off + i, s.mem.byte (a + i))).filter fun e => e.2 != 0)
  | .ok (.carve a) _ _ =>
    if s.mem.lostCarve.contains (a / 4096) then .fail cUncorrectable 0 va else .ok (mslice s.mem.carve a 4096 off)
  | .event w => .held w
  | _ => .fail cProtection 0 va

/-- n sectors of 4 KiB read from a virtual address. -/
def State.getBlock (s : State) (ctx va : Nat) : Nat → Nat → Memory → Met Memory
  | 0, _, m => .ok m
  | n + 1, off, m => (s.getSector ctx (va + off) off).bind fun x => s.getBlock ctx va n (off + 4096) (moverlay m x)

/-- Whether an operation is the device's own wait for a frame of a group. -/
def Op.frameOp (o : Op) (gk : Nat) : Bool := o.who == .orphan && o.gk == gk && o.kind == .acc .probe

/-- Whether an access of a frame of a group is held. -/
def State.frameHeld (s : State) (gk : Nat) : Bool :=
  s.ops.any fun o => o.2.frameOp gk && !(o.2.hold.isEmpty && o.2.want.isEmpty)

/-- Waits of a group's frames that have ended leave. -/
def State.dropFrameOps (s : State) (gk : Nat) : State := { s with ops := kfilter (fun _ o => !o.frameOp gk) s.ops }

/-- An access of a frame is held on a demand event. -/
def State.holdFrame (s : State) (gk va : Nat) : State :=
  let o : Op := { who := .orphan, ctx := gkGrid gk, gk := gk, insn := { pc := 0, word := 0, ext := 0 }, kind := .acc .probe,
                  lanes := 0, slot := none, elems := [Elem.virt 0 va 8 0 0 0], hold := [], want := [], epoch := 0 }
  let k := s.opNo
  (s.addOp o).transOp k

/-! ### Quiescence (10 R310) -/

/-- Warps of a group that are resident. -/
def State.warpsOf (s : State) (g : Group) : List (Nat × Nat × Warp) :=
  g.wks.filterMap fun e => (kget s.warps e.2).map fun w => (e.1, e.2, w)

/-- Whether an operation of a group's warps, or one that a retired warp of it left, is still out; a record that was read
for an instruction is not. -/
def State.groupOps (s : State) (gk : Nat) (g : Group) : Bool :=
  s.ops.any fun o => (match o.2.who with
    | .warp wk => g.wks.any fun e => e.2 == wk
    | .orphan => o.2.gk == gk && !o.2.frameOp gk
    | _ => false) && !(o.2.kind == .acc .recRd && o.2.allDone)

/-- Whether every outstanding result of a group has come: accesses, copies and batches, demand events, matrix entries,
sends that name a slot. -/
def State.quiet (s : State) (gk : Nat) (g : Group) : Bool :=
  !s.groupOps gk g && g.mq.isEmpty && (s.warpsOf g).all (fun e => e.2.2.sealed.isEmpty && e.2.2.hold == none) &&
    !s.sends.any fun x => x.slot.isSome && g.wks.any fun e => e.2 == x.from_

/-! ### Entering the save (10 R311, R312, R314) -/

/-- Code and operand of what a warp is parked in (10 Table 10-12). -/
def Warp.parkCode (w : Warp) : Nat × Nat :=
  match w.park with
  | .none => (0, w.xpend)
  | .barg b => (1, b)
  | .rcw => (2, 0)
  | .regrp m _ _ _ _ => (3, m)
  | .xgrow k => (4, k)
  | .wany m _ _ _ _ => (5, m.toNat)

/-- The active set that the control block keeps: of the current clause, or of a parked WANY. -/
def Warp.savedAct (w : Warp) : Lanes :=
  match w.park, w.inClause with
  | .wany _ act _ _ _, _ => act
  | _, some c => c.act
  | _, none => 0

/-- Cycles elapsed for each timeout binding of a parked WANY. -/
def Warp.wanyElapsed (w : Warp) (now i : Nat) : Nat :=
  match w.park with
  | .wany _ _ base since _ => if ebKind (w.eb64 i) == 5 then base + (now - since) else 0
  | _ => 0

/-- The bytes of a warp's control block that the entry stores write, by offset, with its index buffer. -/
def Warp.controlBlock (w : Warp) (now : Nat) : Memory :=
  let lanes := fun (m : Lanes) => leBytes 16 m.toNat
  let put := fun (m : Memory) (x : Nat × List Byte) => mwrite m x.1 x.2
  let buf := (w.ibufs.filter (·.own)).getLast?
  let (rq, rl) := match w.rcw with
    | some r => ((r.addr, r.elapsed now), r.lanes)
    | none => ((0xFFFFFFFF, 0), 0)
  let words : List (Nat × Nat) :=
    [(0, packFields [(w.parkCode.1, 3), (0, 1), (w.x, 3), ((w.xpend != 0).toNat, 1)]), (4, w.parkCode.2),
     (8, match w.inClause with
       | some c => c.next
       | none => 0xFFFFFFFF),
     (12, rq.1), (16, rq.2), (20, w.q.toNat), (0x18, w.pend.toNat), (0x1C, w.emask.toNat), (0x20, w.aflags.toNat),
     (0x24, w.aenab.toNat), (0x28, match buf with
       | some b => packFields [(b.n, 13), (0, 3), (b.ty, 4)]
       | none => 0)]
  let m := words.foldl (fun m x => put m (x.1, leBytes 4 x.2)) []
  let m := [(0x30, lanes w.live), (0x40, lanes w.savedAct), (0x50, lanes rl)].foldl put m
  let m := (List.range 7).foldl (fun m i => put m (0x60 + 16 * i, lanes (pget w.p i))) m
  let m := (List.range 8).foldl (fun m i => put m (0xD0 + 4 * i, leBytes 4 (rget w.s i).toNat)) m
  let m := (List.range 8).foldl (fun m i => put m (0x100 + 8 * i, leBytes 8 (w.eb64 i))) m
  let m := (List.range 8).foldl (fun m i => put m (0x140 + 4 * i, leBytes 4 (w.wanyElapsed now i))) m
  let m := (List.range w.width).foldl (fun m l => put m (0x200 + 4 * l, leBytes 4 (w.pcOf l))) m
  let m := (List.range w.width).foldl (fun m l => put m (0x400 + 4 * l, leBytes 4 (w.vget 0 l).toNat)) m
  match buf with
  | some b => (List.range b.vals.length).foldl (fun m k => put m (0x800 + esize b.ty * k, leBytes (esize b.ty) (b.vals.getD k 0).toNat)) m
  | none => m

/-- Offsets of the doublewords that the entry stores write: the control block but for s8 to s63, and the index buffer. -/
def Warp.entryOffsets (w : Warp) : List Nat :=
  let n := match (w.ibufs.filter (·.own)).getLast? with
    | some b => (esize b.ty * b.n + 7) / 8
    | none => 0
  ((List.range 256).map (8 * ·)).filter (fun o => o < 0x600 || 0x6E0 ≤ o) ++ (List.range n).map fun k => 0x800 + 8 * k

/-- Length of a share of the scratchpad, and the part of it that share k has (10 R311). -/
def shareUnit (size n : Nat) : Nat := 16 * ((size + 16 * n - 1) / (16 * n))
def shareLen (size n k : Nat) : Nat := min (shareUnit size n) (size - k * shareUnit size n)

/-- A warp as it enters the save handler (10 R311). -/
def Warp.inHandler (w : Warp) (vec frame img share len : Nat) : Warp :=
  let lo := fun (x : Nat) => BitVec.ofNat 32 x
  let hi := fun (x : Nat) => BitVec.ofNat 32 (x / 2 ^ 32)
  let r := ([lo frame, hi frame, lo img, hi img, lo share, lo len, lo w.held, lo w.width].zip (List.range 8)).foldl
    (fun r x => rset r x.2 x.1) w.s
  let v := (List.range w.width).foldl (fun v l => rset v (vkey 0 l) (BitVec.ofNat 32 (4 * l))) w.v
  { w with s := r, v := v, p := [], q := 0, pend := 0, live := lanesFull w.width,
           pcs := setPcs w.pcs (List.range w.width) vec, clause := none, swWait := false, rcw := none, park := .none,
           merged := [], handler := true, hold := none, yield := false, won := none }

/-- One warp enters the save: the entry stores go out, and it stands at the handler. -/
def State.enterSave (s : State) (gk : Nat) (g : Grid) (f n : Nat) (k : Nat) (x : Nat × Nat × Warp) : State :=
  let (ix, wk, w) := x
  let frame := g.warpFrame f ix
  let blk := w.controlBlock (s.core (wkCore wk)).cycles
  let es := w.entryOffsets.map fun o => Elem.virt 0 (frame + o) 8 (BitVec.ofNat 64 (mnum blk o 8)) 0 0
  let c := shareUnit g.desc.scratch n
  let w' := w.inHandler g.savevec.toNat frame (g.frameAt f + 0x112000 + k * c) (k * c) (shareLen g.desc.scratch n k)
  let core := wkCore wk
  let held := ((s.core core).mbox.filter fun m => m.tgt == wk % 128).map fun m => (gk, ix, m)
  let s := s.modCore core fun c =>
    { c with mbox := dropMsgs c.mbox [wk % 128], saved := c.saved ++ held, xq := c.xq.filter fun r => r.wk != wk }
  let s := s.modGroup gk fun g => { g with snap := kset g.snap ix w }
  let op := s.opNo
  let o : Op := { who := .warp wk, ctx := gkGrid gk, gk := gk, insn := { pc := g.savevec.toNat, word := 0, ext := 0 },
                  kind := .acc .store, lanes := 0, slot := none, elems := es, hold := [], want := [], epoch := 0 }
  (((s.setWarp wk w').addOp o).transOp op)

/-- The save of a group begins (10 R311): it takes the lowest free frame of its grid, and each warp that has not
retired enters the handler. -/
def State.beginSave (s : State) (gk : Nat) : State :=
  match kget s.groups gk, kget s.grids (gkGrid gk) with
  | some r, some g =>
    match lowestFree g.frames g.nframe with
    | none => s
    | some f =>
      let held := r.phase == .held || r.wks.isEmpty
      let s := { s with ops := kfilter (fun _ (o : Op) => !(o.gk == gk && o.kind == OpKind.acc .recRd)) s.ops }
      let s := s.modGrid (gkGrid gk) fun g => { g with frames := g.frames ++ [f] }
      let s := s.modGroup gk fun r => { r with phase := .saving f, snap := [] }
      if held then s
      else
        let l := s.warpsOf r
        ((List.range l.length).zip l).foldl (fun s x => s.enterSave gk g f l.length x.1 x.2) s
  | _, _ => s

/-! ### The end of the save (10 R312, R313) -/

/-- The group control block (10 Table 10-11), tags behind it. -/
def State.groupBlock (s : State) (gk : Nat) (g : Group) (held : Bool) : Memory :=
  let put := fun (m : Memory) (x : Nat × List Byte) => mwrite m x.1 x.2
  let mem := match s.seamOf gk with
    | some (_, i) => i
    | none => 0
  let flags := packFields [((g.pub || g.pubT).toNat, 1), (held.toNat, 1), (0, 6), (mem, 4)]
  let m := [(0, leBytes 8 (g.w + s.residency g)), (8, leBytes 4 (gkGrid gk)), (12, leBytes 4 (gkIx gk)), (16, leBytes 4 flags),
            (0x280, leBytes 32 g.retired.toNat), (0x2A0, leBytes 32 g.joins.toNat)].foldl put []
  (List.range 16).foldl (fun m b => put (put m (0x40 + 4 * b, leBytes 4 (g.bar b).gen.toNat)) (0x80 + 32 * b, leBytes 32 (g.bar b).arr.toNat)) m

/-- What the matrix unit writes of the tiles (09 R278): tags, data and hems from offset 0x1000 of the frame. -/
def Group.tileImage (g : Group) : Memory :=
  (List.range 16).foldl (fun m t =>
    let x := g.tile t
    let m := mset m (0x1000 + t) x.tag
    moverlay (moverlay m (mslice x.data 0 0x10000 (0x2000 + t * 0x10000))) (mslice x.hem 0 0x1000 (0x102000 + t * 0x1000))) []

/-- Sectors of the device's own part of a frame: the group control block, with the tiles of a group that holds them. -/
def headSectors (d : KDesc) : Nat := if d.tile then 0x112 else 1

/-- The bytes between the scratchpad image and the warps' frames, which no field takes: offset and sectors (10 R313). -/
def gapAt : Nat := 0x212000
def gapSectors : Nat := 14

/-- Device writes of the frame: the group control block, the tiles of a group that holds them, and zeros where the frame's
table assigns nothing (10 R313). -/
def State.writeFrame (s : State) (gk f : Nat) (g : Group) (d : Grid) (held : Bool) : Met State :=
  let blk := s.groupBlock gk g held
  (s.putBlock (gkGrid gk) (d.frameAt f) (if d.desc.tile then moverlay blk g.tileImage else blk) (headSectors d.desc) 0).bind
    fun s => s.putBlock (gkGrid gk) (d.frameAt f + gapAt) [] gapSectors 0

/-- A saved group waits again, in index order (10 R316). -/
def Grid.addWait (g : Grid) (x : Waiting) : Grid :=
  { g with waits := g.waits.filter (fun y => decide (y.ix < x.ix)) ++ [x] ++ g.waits.filter fun y => decide (x.ix < y.ix) }

/-- The group is absent and its cores are free (10 R312): its residency is charged, and its warps leave. -/
def State.absent (s : State) (gk f : Nat) (held : Bool) : State :=
  let s := s.endResidency gk
  match kget s.groups gk with
  | none => s
  | some g =>
    let keys := g.wks.map (·.2)
    let s := { s with warps := kfilter (fun k _ => !keys.contains k) s.warps }
    let s := s.modGroup gk fun g => { g with phase := .saved f, scr := [], tiles := [], stuck := none }
    s.modGrid (gkGrid gk) fun g => g.addWait { ix := gkIx gk, frame := some f, held := held }

/-- SAVE_COMPLETE (10 R312; 15 R392): every handler has ended, every store of the save is home, the tiles are written. Of a member
that is Held, no handler runs: the scratchpad image of its frame is what the frame memory holds (02 R48; log 101). -/
def execSaveComplete (group : Nat) (s : State) : Res :=
  match kget s.groups group, kget s.grids (gkGrid group) with
  | some g, some d =>
    match g.phase with
    | .saving f =>
      let ws := s.warpsOf g
      if s.groupOps group g || s.frameHeld group || !ws.all (fun e => e.2.2.handler && e.2.2.live == 0) then .next s
      else
        let s := s.dropFrameOps group
        match s.frameReady (gkGrid group) false (sectorsFrom (d.frameAt f) (headSectors d.desc) ++ sectorsFrom (d.frameAt f + gapAt) gapSectors) with
        | (t, false) => .next t
        | (_, true) => match s.writeFrame group f g d ws.isEmpty with
        | .ok s => .next (s.absent group f ws.isEmpty)
        | .fail c e va => .next (s.frameFault group c e va)
        | .held w => .next (s.holdFrame group w.va)
        | .shut w => .next ((s.postShut (gkGrid group) (s.srcOf .orphan (gkGrid group) none) w).frameFault group cTranslation
            (w.reason + 16 * w.kind) w.va)
    | _ => .next s
  | _, _ => .next s

/-! ### Restore (10 R315; 02 R55) -/

/-- A lane mask of 16 bytes. -/
def mlanes (m : Memory) (a : Nat) : Lanes := BitVec.ofNat 128 (mnum m a 16)
def mword (m : Memory) (a : Nat) : Word := BitVec.ofNat 32 (mnum m a 4)

/-- The park of a restored warp; what the frame does not hold comes from the device's own note (log 32). -/
def parkOf (m : Memory) (snap : Warp) (now : Nat) : Park :=
  let arg := mnum m 4 4
  match bitsOf (mnum m 0 4) 0 3 with
  | 1 => .barg arg
  | 3 => match snap.park with
    | .regrp _ a b pc insn => .regrp arg a b pc insn
    | _ => .none
  | 4 => .xgrow arg
  | 5 =>
    let e := ((List.range 8).map fun i => mnum m (0x140 + 4 * i) 4).foldl max 0
    match snap.park with
    | .wany _ _ _ _ insn => .wany (BitVec.ofNat 8 arg) (mlanes m 0x40) e now insn
    | _ => .none
  | _ => .none

/-- A warp as its frame gives it (10 Table 10-12). The frame has no place for the count of a non-blocking XGROW beside the operand
of what the warp is parked in: it is in the device's own note (log 32). -/
def Warp.restored (snap : Warp) (m : Memory) (now op : Nat) : Warp :=
  let x := bitsOf (mnum m 0 4) 4 3
  let width := snap.width
  let next := mnum m 8 4
  let act := mlanes m 0x40
  let park := parkOf m snap now
  let regs := (List.range 8).foldl (fun r i => rset r i (mword m (0xD0 + 4 * i))) []
  let regs := (List.range 56).foldl (fun r i => rset r (8 + i) (mword m (0x600 + 4 * i))) regs
  let v := (List.range width).foldl (fun v l => rset v (vkey 0 l) (mword m (0x400 + 4 * l))) []
  let v := (List.range (31 + 16 * x)).foldl (fun v i => (List.range width).foldl (fun v l =>
    rset v (vkey (i + 1) l) (mword m (0x8800 + 0x200 * (i + 1) + 4 * l))) v) v
  let pcs := (List.range width).foldl (fun r l => rset r l (mword m (0x200 + 4 * l))) []
  let n := bitsOf (mnum m 0x28 4) 0 13
  let ty := bitsOf (mnum m 0x28 4) 16 4
  let buf : IBuf := { op := op, ty := ty, n := n, full := true, own := true,
                      vals := (List.range n).map fun k => BitVec.ofNat 64 (mnum m (0x800 + esize ty * k) (esize ty)) }
  { snap with
    live := mlanes m 0x30, pcs := pcs, v := v, s := regs, x := x,
    p := (List.range 7).foldl (fun p i => pset p i (mlanes m (0x60 + 16 * i))) [],
    q := BitVec.ofNat 4 (mnum m 0x14 4), pend := mword m 0x18, emask := mword m 0x1C, aflags := mword m 0x20,
    aenab := mword m 0x24, eb := (List.range 8).foldl (fun e i => sset 0 e i (BitVec.ofNat 64 (mnum m (0x100 + 8 * i) 8))) [],
    sb := [], swWait := false, yield := false, latch := none, hold := none, handler := false,
    clause := if next == 0xFFFFFFFF then none
      else some { hdr := 0, next := next, stop := 0, nexth := 0, cls := 0, act := act, sw := false, here := 0 },
    rcw := if mnum m 12 4 == 0xFFFFFFFF then none
      else snap.rcw.map fun r => { r with addr := mnum m 12 4, base := mnum m 16 4, since := now, lanes := mlanes m 0x50 },
    park := park, xpend := if bitAt (mnum m 0 4) 7 then snap.xpend else 0,
    ibufs := if n == 0 then [] else [buf] }

/-- A restored warp's request for blocks waits again (02 R40). -/
def State.requeue (s : State) (wk : Nat) (w : Warp) : State :=
  let req := fun (k : Nat) (nb : Bool) => s.modCore (wkCore wk) fun c =>
    { c with xq := c.xq ++ [{ quad := slotQuad (wkSlot wk), wk := wk, k := k, nb := nb }] }
  match w.park with
  | .xgrow k => req k false
  | _ => if w.xpend != 0 then req w.xpend true else s

/-- Messages held for a warp are sent to its new position, in the order in which they arrived (10 R317). -/
def State.resend (s : State) (gk ix wk : Nat) : State :=
  let ms := s.cores.flatMap fun c => (c.2.saved.filter fun x => x.1 == gk && x.2.1 == ix).map fun x => (c.1, x.2.2)
  let s := { s with cores := kmap (fun _ (c : Core) => { c with saved := c.saved.filter fun x => !(x.1 == gk && x.2.1 == ix) }) s.cores }
  { s with sends := s.sends ++ ms.map fun x =>
      { from_ := supKey x.1, gk := gkey (supCtx 0) 0, ix := 2 ^ 20 + wk, core := wkCore wk, msg := { x.2 with tgt := wk % 128 }, slot := none } }

/-- One warp of a restored group takes its place; its WANY is evaluated before it issues (02 R55). -/
def State.restoreWarp (s : State) (gk ix wk : Nat) (snap : Warp) (m : Memory) : State :=
  let w := snap.restored m (s.core (wkCore wk)).cycles s.opNo
  (((s.bumpOp.setWarp wk w).requeue wk w).resend gk ix wk).wanyEval wk 0

/-- The tiles of a frame. -/
def tilesOf (m : Memory) : KV Tile :=
  (List.range 16).map fun t =>
    let tag := mget m (0x1000 + t)
    (t, { tag := tag, itag := tagIssue tag, data := mslice m (0x2000 + t * 0x10000) 0x10000 0, hem := mslice m (0x102000 + t * 0x1000) 0x1000 0 })

/-- Reads the frames of the warps of a group: each with its index and key. -/
def State.readWarps (s : State) (ctx : Nat) (d : Grid) (f : Nat) : List (Nat × Nat) → Met (List (Nat × Nat × Memory))
  | [] => .ok []
  | (ix, wk) :: r =>
    (s.getBlock ctx (d.warpFrame f ix) 0x20 0 []).bind fun m => (s.readWarps ctx d f r).bind fun l => .ok ((ix, wk, m) :: l)

/-- What a frame holds: its group block with the tiles, the scratchpad image, the warps. -/
structure FrameData where
  blk   : Memory
  scr   : Memory
  warps : List (Nat × Nat × Memory)
  deriving DecidableEq, Repr

/-- Reads a frame. -/
def State.readFrame (s : State) (gk f : Nat) (d : Grid) (wks : KV Nat) : Met FrameData :=
  let ctx := gkGrid gk
  (s.getBlock ctx (d.frameAt f) (headSectors d.desc) 0 []).bind fun m =>
    (s.getBlock ctx (d.frameAt f + 0x112000) (d.desc.scratch / 4096) 0 []).bind fun scr =>
      (s.readWarps ctx d f wks).bind fun ws => .ok { blk := m, scr := scr, warps := ws }

/-- The sectors that a restore reads. -/
def frameSectors (f : Nat) (d : Grid) (wks : KV Nat) : List Nat :=
  sectorsFrom (d.frameAt f) (headSectors d.desc) ++ sectorsFrom (d.frameAt f + 0x112000) (d.desc.scratch / 4096) ++
    wks.flatMap fun e => sectorsFrom (d.warpFrame f e.1) 0x20

/-- A group takes back what its frame holds. -/
def Group.restored (g : Group) (x : FrameData) (tile : Bool) (phase : GPhase) (cores slots : List Nat) (wks : KV Nat)
    (since : List (Nat × Nat)) (admitNo : Nat) : Group :=
  let bars := (List.range 16).map fun b => (b, Bar.mk (mword x.blk (0x40 + 4 * b)) (BitVec.ofNat 256 (mnum x.blk (0x80 + 32 * b) 32)))
  { g with phase := phase, cores := cores, slots := slots, wks := wks, scr := x.scr, bars := bars,
           tiles := if tile then tilesOf x.blk else [], mq := [], w := mnum x.blk 0 8, since := since, admitNo := admitNo,
           retired := BitVec.ofNat 256 (mnum x.blk 0x280 32), joins := BitVec.ofNat 256 (mnum x.blk 0x2A0 32), stuck := none }

/-- A saved group returns to cores and slots with its warps at keys wks (10 R315). A frame that is held on an event
keeps the group waiting; one that cannot be read kills the grid (16 R412). -/
def State.restoreGroup (s : State) (gk f : Nat) (phase : GPhase) (cores slots : List Nat) (wks : KV Nat) : State :=
  match kget s.groups gk, kget s.grids (gkGrid gk) with
  | some g, some d =>
    if s.frameHeld gk then s
    else
      let s := s.dropFrameOps gk
      match s.frameReady (gkGrid gk) true (frameSectors f d wks) with
      | (t, false) => t
      | (_, true) => match s.readFrame gk f d wks with
      | .held w => s.holdFrame gk w.va
      | .fail c e va => s.frameFault gk c e va
      | .shut w => s.frameFault gk cTranslation (w.reason + 16 * w.kind) w.va
      | .ok x =>
        let since := cores.map fun c => (c, (s.core c).cycles)
        let s := s.setGroup gk (g.restored x d.desc.tile phase cores slots wks since s.sched.admits)
        let s := { s with sched := { s.sched with admits := s.sched.admits + 1 } }
        let s := cores.foldl (fun s c => s.acquire c 5 false) s
        let s := { s with mgmt := { s.mgmt with fromImage := dropNat s.mgmt.fromImage gk } }
        let s := s.modGrid (gkGrid gk) fun d => { d with waits := d.waits.filter fun x => x.ix != gkIx gk }
        x.warps.foldl (fun s x => match kget g.snap x.1 with
          | some snap => s.restoreWarp gk x.1 x.2.1 snap x.2.2
          | none => s) s
  | _, _ => s

/-- The frame of a restored group is free, and the notes about its warps end (10 R315). -/
def State.freeFrame (s : State) (gk f : Nat) : State :=
  (s.modGrid (gkGrid gk) fun d => { d with frames := dropNat d.frames f }).modGroup gk fun g => { g with snap := [] }

end Sys2Proof.Machine
end

