-- ==== Sys2Proof/Machine/Sched.lean ====
section
/-! DEFINITION. Placement, arbitration and pre-emption (10 R300 to R303, R308 to R310, R316; 02 R24, R25, R35, R40;
15 R389; 17 R431): room on cores, the start of groups, deficit round-robin, victims and decisions. -/

namespace Sys2Proof.Machine

open Host

/-! ### Positions of warps (02 R24, R25, R35) -/

/-- Slots that a half needs. -/
def halfSlots (d : KDesc) (half : Nat) : Nat := (halfCount d half + perSlot d.width - 1) / perSlot d.width

/-- Scratchpad bytes of a half (02 R35). -/
def halfScratch (d : KDesc) (half : Nat) : Nat :=
  if half == 0 then min d.scratch Config.scratchBytes else d.scratch - Config.scratchBytes

/-! ### Room (10 R300) -/

/-- Whether a group holds slots: resident, or with room reserved. -/
def GPhase.holdsRoom : GPhase → Bool
  | .reserved _ => true
  | p => p.resident

/-- Groups that hold room, but for those that are taken as removed. -/
def State.holders (s : State) (rem : Nat → Bool) : KV Group := kfilter (fun k g => g.phase.holdsRoom && !rem k) s.groups

/-- Scratchpad bytes that a group takes of a core. -/
def State.scratchTaken (s : State) (gk : Nat) (g : Group) (core : Nat) : Nat :=
  match s.descOf gk with
  | none => 0
  | some d => ((List.range g.cores.length).filter fun h => g.cores.getD h 0 == core).foldl (fun n h => n + halfScratch d h) 0

/-- Whether a group takes tiles of a cluster: a member whose last warp has retired gives them up (09 R278). -/
def State.tilesTaken (s : State) (gk : Nat) (g : Group) (cluster : Nat) : Bool :=
  match s.descOf gk with
  | none => false
  | some d => d.tile && g.cores.headD 0 / 4 == cluster && !(match g.phase with
    | .reserved f => (s.bringsOf gk d f).isEmpty
    | _ => g.wks.isEmpty)

/-- The waiting entry of a group of a grid. -/
def Grid.waitingOf (g : Grid) (ix : Nat) : Option Waiting :=
  match g.waits.find? fun w => w.ix == ix with
  | some w => some w
  | none => if g.nextg ≤ ix && ix < g.ngroups then some { ix := ix, frame := none, held := false } else none

/-- The waiting entry of a group of the device. -/
def State.waitingOf (s : State) (gk : Nat) : Option Waiting :=
  match kget s.grids (gkGrid gk) with
  | some g => if g.killed.isSome then none else g.waitingOf (gkIx gk)
  | none => none

/-- The group that a held room stands for, as if its room were reserved. -/
def State.roomGroup (s : State) (r : Room) : Nat × Group :=
  (r.gk, Group.fresh (.reserved ((s.waitingOf r.gk).bind (·.frame))) r.cores r.slots [] [] 0 0)

/-- Whether a group has a reservation of its own (10 R305). -/
def State.hasReserved (s : State) (gk : Nat) : Bool := match kget s.groups gk with
  | some r => (match r.phase with
    | .reserved _ => true
    | _ => false)
  | none => false

/-- The rooms that are held for other queues than one; a group with a reservation holds its room by that. -/
def State.otherRooms (s : State) (q : Nat) : List Room := s.sched.rooms.filter fun r => r.q != q && !s.hasReserved r.gk

/-- Whether a core has free what one half of a group takes of it in some slots, beside other groups (10 R300). A group
that brings no warp takes no tiles. -/
def State.halfFits (s : State) (hs : KV Group) (d : KDesc) (brings : List (Nat × Nat)) (core half : Nat) (slots : List Nat) : Bool :=
  let mine := brings.filterMap fun x =>
    if halfStart d half ≤ x.1 && x.1 < halfStart d half + halfCount d half then
      some (slotQuad (slots.getD ((x.1 - halfStart d half) / perSlot d.width) 0), warpBlocks d.width x.2) else none
  let used := hs.flatMap fun e => ((s.blocksTaken e.1 e.2).filter fun b => b.1 == core).map (·.2)
  let scr := hs.foldl (fun n e => n + s.scratchTaken e.1 e.2 core) 0
  let tiles := (hs.filter fun e => s.tilesTaken e.1 e.2 (core / 4)).length
  ((List.range 4).all fun q => decide (needIn used q + needIn mine q ≤ Config.laneBlocks)) &&
    decide (scr + halfScratch d half ≤ Config.scratchBytes) && (!d.tile || brings.isEmpty || decide (tiles < 8))

/-- Slots of a core for one half of a group, in ascending free order, when the half fits it: beside the groups that hold
room now, and beside those that will hold it once the held rooms are taken (10 R300, R308). -/
def State.fitHalf (s : State) (rooms : List Room) (rem : Nat → Bool) (d : KDesc) (brings : List (Nat × Nat)) (core half : Nat) :
    Option (List Nat) :=
  let now := s.holders rem
  let later := (s.holders fun k => rem k || rooms.any fun r => r.going.contains k) ++ rooms.map s.roomGroup
  let taken := (now ++ later).flatMap fun e => (e.2.slots.filter fun x => x / 16 == core).map (· % 16)
  let slots := ((List.range 15).filter fun i => !taken.contains i).take (halfSlots d half)
  if decide (slots.length == halfSlots d half) && s.halfFits now d brings core half slots &&
      (rooms.isEmpty || s.halfFits later d brings core half slots) then some (slots.map fun i => core * 16 + i)
  else none

/-- Whether a cluster takes no group: it is fenced, or a fence of it is in progress (17 R431). -/
def State.clusterShut (s : State) (cluster : Nat) : Bool :=
  (match kget s.clus cluster with
   | some c => c.fenced
   | none => false) ||
  (match s.mgmt.clop with
   | some o => o.cluster == cluster
   | none => false)

/-- Cores on which a group could stand: each core of the partition, or each core pair. -/
def State.sitesOf (s : State) (part : Nat) (pair : Bool) : List (List Nat) :=
  let cs := (s.partCores part).filter fun c => !s.clusterShut (c / 4)
  if pair then (cs.filter fun c => c % 2 == 0).map fun c => [c, c + 1] else cs.map fun c => [c]

/-- The slots that a group finds on a site. -/
def State.fitSite (s : State) (rooms : List Room) (rem : Nat → Bool) (d : KDesc) (brings : List (Nat × Nat)) (site : List Nat) :
    Option (List Nat) :=
  match s.fitHalf rooms rem d brings (site.headD 0) 0, site.drop 1 with
  | some a, [] => some a
  | some a, c :: _ => (s.fitHalf rooms rem d brings c 1).map (a ++ ·)
  | none, _ => none

/-- The lowest site of a list that a group fits: its cores and slots. -/
def State.fitFirst (s : State) (rooms : List Room) (rem : Nat → Bool) (d : KDesc) (brings : List (Nat × Nat)) :
    List (List Nat) → Option (List Nat × List Nat)
  | [] => none
  | c :: r => match s.fitSite rooms rem d brings c with
    | some sl => some (c, sl)
    | none => s.fitFirst rooms rem d brings r

def noneGone : Nat → Bool := fun _ => false

/-! ### Waiting groups (10 R300, R316) -/

/-- The lowest waiting group of a grid, with its frame when it was saved. -/
def Grid.next (g : Grid) : Option Waiting :=
  match g.waits with
  | w :: _ => some w
  | [] => if g.nextg < g.ngroups then some { ix := g.nextg, frame := none, held := false } else none

/-- Groups that will leave their cores without a further decision. -/
def GPhase.leaving : GPhase → Bool
  | .saving _ => true
  | .stopping .save => true
  | .stopping .flush => true
  | .stopped .save => true
  | _ => false

/-- Whether a group that has not started follows one of its grid that is being pre-empted: that one is re-admitted before
it (02 R57). -/
def State.behind (s : State) (id : Nat) (g : Grid) (w : Waiting) : Bool :=
  w.frame.isNone && decide (g.nextg ≤ w.ix) && s.groups.any fun e => gkGrid e.1 == id && decide (gkIx e.1 < w.ix) && e.2.phase.leaving

/-- Whether a waiting group is one that its queue places: it does not follow a group that is being pre-empted, and is no
seam member but member 0 at the leader, whose rendezvous is not under way (10 R305). -/
def State.byQueue (s : State) (id : Nat) (g : Grid) (w : Waiting) : Bool :=
  if s.behind id g w then false else match g.seam with
  | none => true
  | some r => r.mbase + w.ix == 0 && r.peers.headD 0 == s.mgmt.peernum.toNat && (match kget s.seams r.id with
    | some m => m.phase == .idle && m.retry == 0
    | none => false)

/-- A queue's next group: the grid, its number, the group (10 R300). Grids stand in the order of their launches. -/
def State.nextGroup (s : State) (part q : Nat) : Option (Nat × Grid × Waiting) :=
  let gs := s.grids.filter fun e => e.2.q == q && e.2.part == part && e.2.killed.isNone && (e.2.next).isSome
  match gs with
  | [] => none
  | e :: r =>
    let m := r.foldl (fun a b => if b.2.order < a.2.order then b else a) e
    m.2.next.map fun w => (m.1, m.2, w)

/-- Whether a queue has a waiting group. -/
def State.hasWaiting (s : State) (q : Nat) : Bool :=
  s.grids.any fun e => e.2.q == q && e.2.killed.isNone && (e.2.next).isSome

/-- Level of a queue. -/
def State.level (s : State) (q : Nat) : Nat := (s.queue q).prio.toNat

/-- Queues of a partition that have a waiting group. -/
def State.waitingQueues (s : State) (part : Nat) : List Nat :=
  sortNat ((s.grids.filter fun e => e.2.part == part && e.2.killed.isNone && (e.2.next).isSome).map fun e => e.2.q)

/-- The core or pair that a passed-over group will have: the lowest that it could fit once resident groups retire. -/
def State.claimOf (s : State) (part q : Nat) : List Nat :=
  match s.nextGroup part q with
  | some (id, g, w) =>
    match s.fitFirst [] (fun k => decide (gkGrid k < 2 ^ 32)) g.desc (s.bringsOf (gkey id w.ix) g.desc w.frame) (s.sitesOf part g.desc.pair) with
    | some (c, _) => c
    | none => []
  | none => []

/-- Whether a queue may place no group on a core: a queue of its level or above, passed over 64 times, claims it
(10 R301). -/
def State.barred (s : State) (part q core : Nat) : Bool :=
  (s.waitingQueues part).any fun p => p != q && decide (64 ≤ (s.queue p).passed) && decide (s.level q ≤ s.level p) &&
    (s.claimOf part p).contains core

/-- Sites of a partition open to a queue. -/
def State.openSites (s : State) (part q : Nat) (pair : Bool) : List (List Nat) :=
  (s.sitesOf part pair).filter fun c => !c.any fun x => s.barred part q x

/-- Where a queue's next group fits now. -/
def State.placeFor (s : State) (part q : Nat) : Option (Nat × Grid × Waiting × List Nat × List Nat) :=
  match s.nextGroup part q with
  | none => none
  | some (id, g, w) =>
    if !s.byQueue id g w || s.frameHeld (gkey id w.ix) then none
    else (s.fitFirst (s.otherRooms q) noneGone g.desc (s.bringsOf (gkey id w.ix) g.desc w.frame) (s.openSites part q g.desc.pair)).map
      fun x => (id, g, w, x.1, x.2)

/-! ### Start (10 R296, R303, R308) -/

/-- The estimate of a grid's groups (10 R308). -/
def Grid.est (g : Grid) : Option Int := if g.desc.est != 0 then some g.desc.est else g.avg

/-- A warp of a group that starts from the beginning (10 R296). -/
def Warp.fresh (g : Grid) (gk ix : Nat) : Warp :=
  let half := fun (x : DWord) (i : Nat) => BitVec.ofNat 32 (x.toNat / 2 ^ (32 * i))
  { Warp.supervisor 0 0 with
    gk := gk, ix := ix, width := g.desc.width, x := g.desc.regx, live := lanesFull g.desc.width,
    s := rset (rset (rset (rset [] 0 (half g.args 0)) 1 (half g.args 1)) 2 (half g.data 0)) 3 (half g.data 1) }

/-- A group that takes its place is no longer one that leaves a held room. -/
def State.comeBack (s : State) (gk : Nat) : State :=
  { s with sched := { s.sched with rooms := s.sched.rooms.map fun r => { r with going := dropNat r.going gk } } }

/-- A group starts from the beginning on cores and slots; its provisional charge is made (10 R303). What it has consumed
in residencies that ended in a flush counts on (10 R308, R309). -/
def State.startGroup (s : State) (id ix : Nat) (phase : GPhase) (cores slots : List Nat) : State :=
  match kget s.grids id with
  | none => s
  | some g =>
    let gk := gkey id ix
    let p : Int := g.est.getD 0
    let wks := (List.range g.desc.warps).map fun i => (i, wkOf g.desc cores slots i)
    let since := cores.map fun c => (c, (s.core c).cycles)
    let s := (s.comeBack gk).setGroup gk { Group.fresh phase cores slots wks since p s.sched.admits with w := kgetD g.used ix 0 }
    let s := { s with sched := { s.sched with admits := s.sched.admits + 1 } }
    let s := wks.foldl (fun s e => s.setWarp e.2 (Warp.fresh g gk e.1)) s
    let s := cores.foldl (fun s c => s.acquire c 5 false) s
    (s.modGrid id fun g => { g with waits := g.waits.filter (fun w => w.ix != ix),
                                    nextg := if g.nextg == ix then ix + 1 else g.nextg }).charge id p

/-- A waiting group takes its place. A held exit is restored as held. -/
def State.placeGroup (s : State) (id : Nat) (g : Grid) (w : Waiting) (cores slots : List Nat) : State :=
  let gk := gkey id w.ix
  match w.frame with
  | none => s.startGroup id w.ix .run cores slots
  | some f =>
    let old := match kget s.groups gk with
      | some r => r.snap
      | none => []
    let s := (s.comeBack gk).restoreGroup gk f .run cores slots (old.map fun e => (e.1, wkOf g.desc cores slots e.1))
    match kget s.groups gk with
    | some r => if r.phase == .run then s.freeFrame gk f else s
    | none => s

/-- Whether a group runs. -/
def State.runs (s : State) (gk : Nat) : Bool := match kget s.groups gk with
  | some r => r.phase == .run
  | none => false

/-! ### Selection (10 R303) -/

/-- Key of a level of a partition. -/
def levelKey (part level : Nat) : Nat := part * 4 + level

/-- The record of a level. -/
def State.levelRec (s : State) (part level : Nat) : Level := kgetD s.sched.levels (levelKey part level) Level.reset
def State.setLevel (s : State) (part level : Nat) (l : Level) : State :=
  { s with sched := { s.sched with levels := kset s.sched.levels (levelKey part level) l } }

/-- The first number of an ascending list at or after p, cyclically. -/
def firstFrom (l : List Nat) (p : Nat) : Option Nat :=
  match l.find? fun x => decide (p ≤ x) with
  | some x => some x
  | none => l.head?

/-- Quantum of a queue in core-cycles. -/
def Queue.quant (r : Queue) : Int := 65536 * (max r.quantum.toNat 1 : Nat)

/-- select(L) over the eligible queues, at most fuel turns (log 15). -/
def State.selectQ (s : State) (part level : Nat) (elig : List Nat) : Nat → State × Option Nat
  | 0 => (s, none)
  | fuel + 1 =>
    let lv := s.levelRec part level
    match firstFrom elig lv.ptr with
    | none => (s, none)
    | some q =>
      let s := if q != lv.ptr || lv.fresh then s.addDeficit q (s.queue q).quant else s
      if 0 < (s.queue q).deficit.toInt then (s.setLevel part level { ptr := q, fresh := false }, some q)
      else (s.setLevel part level { ptr := (q + 1) % 256, fresh := true }).selectQ part level elig fuel

/-- Turns that select may need: a deficit is at least -2^63 and each turn adds at least 2^16. -/
def selectFuel : Nat := 2 ^ 60

/-- After a queue's group is placed: one with no further waiting group gives up its surplus and its turn. -/
def State.afterPlace (s : State) (part q : Nat) : State :=
  let s := { s with sched := { s.sched with rooms := s.sched.rooms.filter fun r => r.q != q } }
  let s := s.modQueue q fun r => { r with passed := 0 }
  if s.hasWaiting q then s
  else
    let s := s.modQueue q fun r => { r with deficit := if 0 < r.deficit.toInt then 0 else r.deficit }
    s.setLevel part (s.level q) { ptr := (q + 1) % 256, fresh := true }

/-- Queues whose next group fits no core are passed over by a placement; a claim that 64 of them give lasts until the
group is placed (10 R301). -/
def State.passOver (s : State) (part placed : Nat) : State :=
  (s.waitingQueues part).foldl (fun s q =>
    if q == placed then s
    else match s.nextGroup part q with
      | none => s
      | some (id, g, w) =>
        if !s.byQueue id g w || decide (64 ≤ (s.queue q).passed) then s
        else if (s.fitFirst (s.otherRooms q) noneGone g.desc (s.bringsOf (gkey id w.ix) g.desc w.frame)
            (s.sitesOf part g.desc.pair)).isSome then s.modQueue q fun r => { r with passed := 0 }
        else s.modQueue q fun r => { r with passed := r.passed + 1 }) s

/-- Room held for a group that waits no more is given up, and so is the claim of a queue without a waiting group. -/
def State.pruneRooms (s : State) : State :=
  { s with sched := { s.sched with
      rooms := s.sched.rooms.filter fun r => (s.waitingOf r.gk).isSome,
      queues := kmap (fun q (r : Queue) => if s.hasWaiting q then r else { r with passed := 0 }) s.sched.queues } }

/-- The leader starts the rendezvous of a seam (10 R305): RESERVE to the member devices. -/
def State.startSeam (s : State) (id : Nat) (m : Seam) : State :=
  let s := { s with seams := kset s.seams id { m with phase := .reserving, answers := [], start := (s.core 0).cycles, retry := 0 } }
  s.seamAll m 1 id

/-- Whether a partition's scheduler runs: it is started and no checkpoint stops it. -/
def State.schedules (s : State) (part : Nat) : Bool := (s.part part).state == 1 && !(s.part part).stopped

/-- Member groups of a seam on this device, with their member indices. -/
def State.membersHere (s : State) (m : Seam) : List (Nat × Nat × Group) :=
  m.locals.filterMap fun e => (kget s.groups e.2).map fun g => (e.1, e.2, g)

/-- A member takes its reserved room (10 R305 step 2). -/
def State.commitOne (s : State) (gk : Nat) (g : Group) : State :=
  match g.phase, kget s.grids (gkGrid gk) with
  | .reserved none, some _ => s.startGroup (gkGrid gk) (gkIx gk) (.commit none) g.cores g.slots
  | .reserved (some f), some d =>
    (s.comeBack gk).restoreGroup gk f (.commit (some f)) g.cores g.slots (g.snap.map fun e => (e.1, wkOf d.desc g.cores g.slots e.1))
  | _, _ => s

/-- Whether every member of a seam on this device is resident, or gone. -/
def State.committed (s : State) (m : Seam) : Bool := (s.membersHere m).all fun x => match x.2.2.phase with
  | .commit _ => true
  | .gone => true
  | _ => false

/-- What follows the placement of a queue's group, for the queue of member 0 when it stands here (10 R303). -/
def State.leadPlaced (s : State) (m : Seam) : State :=
  match m.locals.find? fun e => e.1 == 0 with
  | some (_, gk) => match kget s.grids (gkGrid gk) with
    | some g => s.afterPlace g.part g.q
    | none => s
  | none => s

/-- Each member that takes its place passes over the queues whose next group fits no core (10 R301). -/
def State.seamPasses (s : State) (m : Seam) : State :=
  (s.membersHere m).foldl (fun s x => match x.2.2.phase, kget s.grids (gkGrid x.2.1) with
    | .commit _, some g => s.passOver g.part g.q
    | _, _ => s) s

/-- The members of a seam on this device become resident; once all are, READY goes to the leader. -/
def State.commitSeam (s : State) (id : Nat) (m : Seam) : State :=
  let s := (s.membersHere m).foldl (fun s x => s.commitOne x.2.1 x.2.2) s
  let done := s.committed m
  let s := { s with seams := kmod s.seams id fun m => { m with going := !done } }
  if done then ((s.seamPasses m).leadPlaced m).seamMsg m.leader 5 id 0 else s

/-- A seam whose commit goes on: no access of a member's frame is held. -/
def State.commitWaits (s : State) (m : Seam) : Bool :=
  m.going && (s.membersHere m).any fun x => match x.2.2.phase with
    | .reserved (some _) => !s.frameHeld x.2.1
    | _ => false

/-- The commits that wait go on. -/
def State.commitSeams (s : State) : State :=
  (s.seams.filter fun e => s.commitWaits e.2).foldl (fun s e => s.commitSeam e.1 e.2) s

/-- GROUP_PLACEMENT (10 R300 to R303, R305, R315, R316). -/
def execGroupPlacement (part : Nat) (s : State) : Res :=
  let s := s.commitSeams
  if !s.schedules part then .next s
  else
    let s := s.pruneRooms
    let elig := (s.waitingQueues part).filter fun q => (s.placeFor part q).isSome
    match elig.foldl (fun (a : Option Nat) q => some (max (a.getD 0) (s.level q))) none with
    | none => .next s
    | some top =>
      match s.selectQ part top (elig.filter fun q => s.level q == top) selectFuel with
      | (s, none) => .next s
      | (s, some q) =>
        match s.placeFor part q with
        | none => .next s
        | some (id, g, w, cores, slots) =>
          match g.seam.bind fun r => (kget s.seams r.id).map fun m => (r.id, m) with
          | some (sid, m) => .next (s.startSeam sid m)
          | none =>
            let s := s.placeGroup id g w cores slots
            if s.runs (gkey id w.ix) then .next ((s.passOver part q).afterPlace part q) else .next s

/-! ### Pre-emption (10 R308 to R310) -/

/-- Core-cycles over all residencies (10 R309). -/
def State.consumed (s : State) (g : Group) : Nat := g.w + (if g.phase.resident then s.residency g else 0)

/-- Frames of a grid that are free and not promised to a group that is about to be saved. -/
def State.freeFrames (s : State) (id : Nat) (g : Grid) : Nat :=
  let promised := (s.groups.filter fun e => gkGrid e.1 == id && (e.2.phase == .stopping .save || e.2.phase == .stopped .save)).length
  g.nframe - (g.frames.length + promised)

/-- Whether a group can be saved. -/
def State.canSave (s : State) (gk : Nat) : Bool :=
  match kget s.grids (gkGrid gk) with
  | some g => g.savevec != 0 && decide (0 < s.freeFrames (gkGrid gk) g)
  | none => false

/-- Whether a group can be flushed: idempotent, not published, in no seam (10 R309). -/
def State.canFlush (s : State) (gk : Nat) : Bool :=
  match kget s.grids (gkGrid gk), kget s.groups gk with
  | some g, some r => g.desc.idem && !(r.pub || r.pubT) && g.seam.isNone
  | _, _ => false

/-- Whether a group is near its end (10 R309). -/
def State.nearEnd (s : State) (gk : Nat) : Bool :=
  match kget s.grids (gkGrid gk), kget s.groups gk with
  | some g, some r => match g.est with
    | some e => decide (3 * e ≤ 4 * (s.consumed r : Int))
    | none => false
  | _, _ => false

/-- decide(group) (10 R309). -/
def State.decision (s : State) (gk : Nat) : Decision :=
  if s.nearEnd gk then .drain else if s.canFlush gk then .flush else if s.canSave gk then .save else .drain

/-- The decision of a checkpoint (10 R319): flush, else save, else drain. -/
def State.decideCkpt (s : State) (gk : Nat) : Decision :=
  if s.canFlush gk then .flush else if s.canSave gk then .save else .drain

/-- A group stops issuing with a decision; a seam member is stopped with its seam, through the leader (10 R307, R310). -/
def State.preemptGroup (s : State) (gk : Nat) (d : Decision) : State :=
  match s.seamOf gk with
  | some (r, _) => s.seamMsg (r.peers.headD 0) 9 r.id 0
  | none => s.modGroup gk fun g => if g.phase == .run then { g with phase := .stopping d } else g

/-- Groups of a site that a queue of a level may remove: of lower levels, lowest level first, within a level the latest
admitted first (10 R308). -/
def State.victims (s : State) (level : Nat) (site : List Nat) : List Nat :=
  let l := s.groups.filterMap fun e =>
    match kget s.grids (gkGrid e.1) with
    | none => none
    | some g =>
      if (e.2.phase == .run || e.2.phase == .held) && e.2.cores.any (fun c => site.contains c) && decide (s.level g.q < level) then
        some (s.level g.q, e.2.admitNo, e.1) else none
  let before := fun (a b : Nat × Nat × Nat) => decide (a.1 < b.1) || (a.1 == b.1 && decide (b.2.1 < a.2.1))
  let ins := fun (x : Nat × Nat × Nat) (l : List (Nat × Nat × Nat)) => l.takeWhile (fun y => before y x) ++ [x] ++ l.dropWhile (fun y => before y x)
  (l.foldl (fun acc x => ins x acc) []).map (·.2.2)

/-- The shortest prefix of the victims whose removal lets a group fit a site, and the slots that it finds then. -/
def State.enough (s : State) (rooms : List Room) (d : KDesc) (brings : List (Nat × Nat)) (site : List Nat) (going : List Nat) :
    List Nat → List Nat → Option (List Nat × List Nat)
  | [], acc => (s.fitSite rooms (fun k => (going ++ acc).contains k) d brings site).map fun sl => (acc, sl)
  | v :: r, acc =>
    match s.fitSite rooms (fun k => (going ++ acc).contains k) d brings site with
    | some sl => some (acc, sl)
    | none => s.enough rooms d brings site going r (acc ++ [v])

/-- The lowest site of a list that can be freed for a group: the site, its slots and the groups to remove. -/
def State.clearFor (s : State) (rooms : List Room) (d : KDesc) (brings : List (Nat × Nat)) (level : Nat) (going : List Nat) :
    List (List Nat) → Option (List Nat × List Nat × List Nat)
  | [] => none
  | c :: r =>
    match s.enough rooms d brings c going (s.victims level c) [] with
    | some (vs, sl) => some (c, sl, vs)
    | none => s.clearFor rooms d brings level going r

/-- Groups that are leaving their cores. -/
def State.leavers (s : State) : List Nat := (s.groups.filter fun e => e.2.phase.leaving).map (·.1)

/-- Pre-emption for one queue whose next group fits no core (10 R308): room is freed once, and held for that group. -/
def State.preemptFor (s : State) (part q : Nat) : State :=
  match s.nextGroup part q with
  | none => s
  | some (id, g, w) =>
    let brings := s.bringsOf (gkey id w.ix) g.desc w.frame
    if s.behind id g w || s.hasReserved (gkey id w.ix) || (s.sched.rooms.any fun r => r.q == q) ||
        (s.fitFirst (s.otherRooms q) noneGone g.desc brings (s.openSites part q g.desc.pair)).isSome then s
    else match s.clearFor (s.otherRooms q) g.desc brings (s.level q) s.leavers (s.openSites part q g.desc.pair) with
      | none => s
      | some (site, slots, vs) =>
        let r : Room := { q := q, gk := gkey id w.ix, cores := site, slots := slots, going := s.leavers ++ vs }
        let s := { s with sched := { s.sched with rooms := s.sched.rooms ++ [r] } }
        vs.foldl (fun s gk => s.preemptGroup gk (s.decision gk)) s

/-- A decision takes effect once the group's results are complete (10 R310). -/
def State.applyDecision (s : State) (gk : Nat) (d : Decision) : State :=
  match d with
  | .drain => s.modGroup gk fun g => { g with phase := .run }
  | .flush => s.flushGroup gk
  | .save => s.beginSave gk

/-- Code of a decision in STOPPED (11 Table 11-10). -/
def stopCode (i : Nat) (p : GPhase) : Nat :=
  match p with
  | .stopped .save => 2 * 4 ^ i
  | .stopped _ => 4 ^ i
  | _ => 0

/-- A stopped seam: each member whose results are complete is stopped; once all of them are, the leader is told. -/
def State.stopMembers (s : State) (id : Nat) (m : Seam) : State :=
  let s := (s.membersHere m).foldl (fun s x => match x.2.2.phase with
    | .stopping d => if s.quiet x.2.1 x.2.2 then s.modGroup x.2.1 fun g => { g with phase := .stopped d } else s
    | _ => s) s
  let ms := s.membersHere m
  if ms.any (fun x => match x.2.2.phase with
      | .stopping _ => true
      | _ => false) then s
  else s.seamMsg m.leader 11 id (ms.foldl (fun n x => n + stopCode x.1 x.2.2.phase) 0)

/-- Seams of this device with a member that is still stopping. -/
def State.stoppingSeams (s : State) : List (Nat × Seam) :=
  s.seams.filter fun e => (s.membersHere e.2).any fun x => match x.2.2.phase with
    | .stopping _ => s.quiet x.2.1 x.2.2
    | _ => false

/-- PREEMPTION (10 R308 to R311): the decision of a group of the partition that has stopped takes effect, else groups
are chosen for a queue that waits for room, the highest level first. -/
def execPreemption (part : Nat) (s : State) : Res :=
  let inPart := fun (gk : Nat) => match kget s.grids (gkGrid gk) with
    | some g => g.part == part
    | none => false
  match s.stoppingSeams.find? fun e => e.2.locals.any fun x => inPart x.2 with
  | some (id, m) => .next (s.stopMembers id m)
  | none =>
    match s.groups.findSome? fun e => match e.2.phase with
      | .stopping d => if inPart e.1 && (s.seamOf e.1).isNone && s.quiet e.1 e.2 then some (e.1, d) else none
      | _ => none with
    | some (gk, d) => .next (s.applyDecision gk d)
    | none =>
      if !s.schedules part then .next s
      else
        let qs := s.waitingQueues part
        .next ([3, 2, 1, 0].foldl (fun s l => (qs.filter fun q => s.level q == l).foldl (fun s q => s.preemptFor part q) s) s)

end Sys2Proof.Machine
end

