-- ==== Sys2Proof/Machine/Seams.lean ====
section
/-! DEFINITION. Scheduler messages of seams (10 R305 to R307; 02 R45 to R48; 11 R336; 15 R388, R389): rendezvous,
pre-emption and release of seams. The leader keeps the phase of a seam; every device keeps its members' phases. -/

namespace Sys2Proof.Machine

open Host

/-- The device's own peer number. -/
def State.me (s : State) : Nat := s.mgmt.peernum.toNat

def State.setSeam (s : State) (id : Nat) (m : Seam) : State := { s with seams := kset s.seams id m }

/-- Runs on a seam that the device knows. -/
def onSeam (s : State) (seam : Word) (k : Nat → Seam → State) : Res :=
  match kget s.seams seam.toNat with
  | some m => .next (k seam.toNat m)
  | none => .next s

/-- The codes acted on once a message of one has been: of a member device's messages, those that the next stage of the
seam makes due again leave (17 R420). -/
def seenAfter (seen : BitVec 16) (code : Nat) : BitVec 16 :=
  let bit := fun (c : Nat) => BitVec.ofNat 16 (2 ^ c)
  match code with
  | 4 => seen ||| bit 4
  | 6 => (seen ||| bit 6) &&& ~~~(bit 10 ||| bit 12)
  | 10 => (seen ||| bit 10) &&& ~~~(bit 6)
  | _ => bit code

/-- Runs on a seam that the device knows, unless a message of the code has already been acted on. -/
def onNew (seam : Word) (code : Nat) (s : State) (k : Nat → Seam → State → State) : Res :=
  match kget s.seams seam.toNat with
  | none => .next s
  | some m =>
    if m.seen.getLsbD code then .next s
    else
      let m := { m with seen := seenAfter m.seen code }
      .next (k seam.toNat m (s.setSeam seam.toNat m))

/-- Runs on a seam that the device leads. -/
def asLeader (s : State) (seam : Word) (k : Nat → Seam → State) : Res :=
  onSeam s seam fun id m => if m.leader == s.me then k id m else s

/-! ### Reservation (10 R305, R306) -/

/-- Room for one member is reserved, unless it is already, or the member is gone. -/
def State.reserveOne (s : State) (gk : Nat) : Option State :=
  match kget s.grids (gkGrid gk) with
  | none => some s
  | some g =>
    let done := match kget s.groups gk with
      | some r => (match r.phase with
        | .reserved _ => true
        | .gone => true
        | _ => false)
      | none => false
    if done then some s
    else if g.killed.isSome || !s.schedules g.part then none
    else match g.waitingOf (gkIx gk) with
      | none => none
      | some w =>
        match s.fitFirst (s.otherRooms g.q) noneGone g.desc (s.bringsOf gk g.desc w.frame) (s.openSites g.part g.q g.desc.pair) with
        | none => none
        | some (cores, slots) => some (match w.frame, kget s.groups gk with
          | some f, some r => s.setGroup gk { r with phase := .reserved (some f), cores := cores, slots := slots }
          | _, _ => s.setGroup gk (Group.fresh (.reserved none) cores slots [] [] 0 0))

/-- Members that the device must bring. -/
def Seam.mine (m : Seam) (me : Nat) : List Nat := (List.range m.members).filter fun i => m.peers.getD i 0 == me

/-- Room for every member on this device, all or nothing. -/
def State.reserveSeam (s : State) (m : Seam) : Option State :=
  if !((m.mine s.me).all fun i => m.locals.any fun e => e.1 == i) then none
  else m.locals.foldl (fun a e => a.bind fun s => s.reserveOne e.2) (some s)

/-- A committed member that a RELEASE reaches leaves again; nothing of it has issued. -/
def State.uncommit (s : State) (gk f : Nat) (g : Group) : State :=
  let s := g.wks.foldl (fun s e =>
    let held := ((s.core (wkCore e.2)).mbox.filter fun m => m.tgt == e.2 % 128).map fun m => (gk, e.1, m)
    s.modCore (wkCore e.2) fun c => { c with mbox := dropMsgs c.mbox [e.2 % 128], saved := c.saved ++ held,
                                             xq := c.xq.filter fun r => r.wk != e.2 }) s
  s.absent gk f g.wks.isEmpty

/-- The room of one member is free again. -/
def State.freeMember (s : State) (gk : Nat) (g : Group) : State :=
  match g.phase with
  | .reserved none => { s with groups := kdel s.groups gk }
  | .reserved (some f) => s.setGroup gk { g with phase := .saved f }
  | .commit none => s.flushGroup gk
  | .commit (some f) => s.uncommit gk f g
  | _ => s

/-- The room that a seam holds on this device is free again. -/
def State.freeSeam (s : State) (m : Seam) : State := (s.membersHere m).foldl (fun s x => s.freeMember x.2.1 x.2.2) s

/-- Seams above a number with an uncommitted reservation here, the highest first. A committed one is never revoked. -/
def State.revocable (s : State) (id : Nat) : List (Nat × Seam) :=
  (s.seams.filter fun e => decide (id < e.1) && !e.2.going && (s.membersHere e.2).any fun x => match x.2.2.phase with
    | .reserved _ => true
    | _ => false).reverse

/-- Whether a seam has room here once the room of others is free. -/
def State.roomWithout (s : State) (m : Seam) (l : List (Nat × Seam)) : Option State :=
  (l.foldl (fun s e => s.freeSeam e.2) s).reserveSeam m

/-- The shortest prefix of a list of reservations without which a seam has room. -/
def State.roomPrefix (s : State) (m : Seam) : List (Nat × Seam) → List (Nat × Seam) → Option (List (Nat × Seam))
  | [], _ => none
  | e :: r, l => if (s.roomWithout m (l ++ [e])).isSome then some (l ++ [e]) else s.roomPrefix m r (l ++ [e])

/-- The reservations of a list whose release the room needs: each that can stay, stays (log 36). -/
def State.roomNeeds (s : State) (m : Seam) : List (Nat × Seam) → List (Nat × Seam) → List (Nat × Seam)
  | [], l => l
  | e :: r, l => if (s.roomWithout m (l ++ r)).isSome then s.roomNeeds m r l else s.roomNeeds m r (l ++ [e])

/-- Reservations of higher seams are given up for a seam: the state and the seams given up. -/
def State.reserveOver (s : State) (m : Seam) (l : List (Nat × Seam)) : Option (State × List (Nat × Seam)) :=
  match s.roomPrefix m l [] with
  | none => none
  | some p =>
    let given := s.roomNeeds m p []
    (s.roomWithout m given).map fun t => (t, given)

/-- RESERVE (10 R305 step 1, R306). -/
def execReserve (src : Sender) (seam : Word) (s : State) : Res :=
  onLink (.reserve src seam) src.link s fun s =>
  if !khas s.seams seam.toNat then .next (s.seamMsg src.dev 3 seam.toNat 0)
  else onNew seam 1 s fun id m s =>
    match s.reserveSeam m with
    | some s => s.seamMsg src.dev 2 id 0
    | none =>
      match s.reserveOver m (s.revocable id) with
      | some (s, given) => (given.foldl (fun s e => s.seamMsg e.2.leader 8 e.1 0) s).seamMsg src.dev 2 id 0
      | none => s.seamMsg src.dev 3 id 0

/-! ### The leader (10 R305; 15 R389) -/

/-- The notice of a rendezvous that has failed 1,024 times more (15 R389), at the lowest core of member 0's partition. -/
def State.seamNotice (s : State) (m : Seam) : State :=
  match m.locals.find? fun e => e.1 == 0 with
  | none => s
  | some (_, gk) =>
    match kget s.grids (gkGrid gk) with
    | none => s
    | some g =>
      let core := (s.partCores g.part).headD 0
      let t : TrapInfo := { TrapInfo.sched 0 m.lastBusy 0 with aux := 1024 }
      s.postRecord g.part core fun seq drops => trapBits t (gkGrid gk) (gkIx gk) 0 0 0 core seq 3 drops

/-- An attempt fails: RELEASE to every device, and a retry after 4,096 × 2^min(k, 8) cycles. -/
def State.failSeam (s : State) (id : Nat) (m : Seam) (peer : Nat) : State :=
  let k := m.fails + 1
  let m := { m with phase := .idle, answers := [], fails := k, lastBusy := peer,
                    retry := (s.core 0).cycles + 4096 * 2 ^ min k 8 }
  let s := (s.setSeam id m).seamAll m 7 id
  if k % 1024 == 0 then s.seamNotice m else s

/-- Whether a rendezvous is under way. -/
def Seam.pending (m : Seam) : Bool := m.phase == .reserving || m.phase == .committing

/-- An answer is recorded; whether every device has answered. -/
def Seam.answered (m : Seam) (src : Nat) : Seam × Bool :=
  let a := if m.answers.contains src then m.answers else m.answers ++ [src]
  ({ m with answers := a }, m.devices.all a.contains)

/-- RESERVED (10 R305 step 2). -/
def execReserved (src : Sender) (seam : Word) (s : State) : Res :=
  onLink (.reserved src seam) src.link s fun s =>
  asLeader s seam fun id m =>
    if m.phase != .reserving then s
    else match m.answered src.dev with
      | (m, false) => s.setSeam id m
      | (m, true) => (s.setSeam id { m with phase := .committing, answers := [], start := (s.core 0).cycles }).seamAll m 4 id

/-- BUSY (10 R305). -/
def execBusy (src : Sender) (seam : Word) (s : State) : Res :=
  onLink (.busy src seam) src.link s fun s =>
  asLeader s seam fun id m => if m.pending then s.failSeam id m src.dev else s

/-- REVOKE (10 R305, R306). Its sender has answered: the peer that R389 names stays. -/
def execRevoke (src : Sender) (seam : Word) (s : State) : Res :=
  onLink (.revoke src seam) src.link s fun s =>
  asLeader s seam fun id m => if m.pending then s.failSeam id m m.lastBusy else s

/-- COMMIT (10 R305 step 2): only a reservation that is still held becomes resident; members that are gone need none. -/
def execCommit (src : Sender) (seam : Word) (s : State) : Res :=
  onLink (.commit src seam) src.link s fun s =>
  onNew seam 4 s fun id m s =>
    if m.locals.any (fun e => s.hasReserved e.2) || m.locals.all (fun e => (s.waitingOf e.2).isNone) then s.commitSeam id m else s

/-- READY (10 R305 step 3). -/
def execReady (src : Sender) (seam : Word) (s : State) : Res :=
  onLink (.ready src seam) src.link s fun s =>
  asLeader s seam fun id m =>
    if m.phase != .committing then s
    else match m.answered src.dev with
      | (m, false) => s.setSeam id m
      | (m, true) => (s.setSeam id { m with phase := .resident, answers := [], fails := 0 }).seamAll m 6 id

/-- RELEASE (10 R305). -/
def execRelease (src : Sender) (seam : Word) (s : State) : Res :=
  onLink (.release src seam) src.link s fun s =>
  onNew seam 7 s fun id m s => (s.setSeam id { m with going := false }).freeSeam m

/-- RENDEZVOUS_TIMEOUT (10 R305): no full set of answers after 1,048,576 cycles. -/
def execRendezvousTimeout (seam : Word) (s : State) : Res :=
  asLeader s seam fun id m =>
    if m.pending && decide (m.start + Config.rendezvousCycles ≤ (s.core 0).cycles) then
      s.failSeam id m (((m.devices.filter fun p => !m.answers.contains p).getLast?).getD 0)
    else s

/-- Whether member 0 of a seam waits here and may be placed. -/
def State.member0Waits (s : State) (m : Seam) : Bool :=
  match m.locals.find? fun e => e.1 == 0 with
  | none => false
  | some (_, gk) => match kget s.grids (gkGrid gk) with
    | some g => g.killed.isNone && s.schedules g.part && (g.waitingOf (gkIx gk)).isSome
    | none => false

/-- RENDEZVOUS_RETRY (10 R305): the wait after a failed attempt has passed. -/
def execRendezvousRetry (seam : Word) (s : State) : Res :=
  asLeader s seam fun id m =>
    if m.phase == .idle && m.retry != 0 && decide (m.retry ≤ (s.core 0).cycles) then
      if s.member0Waits m then s.startSeam id m else s.setSeam id { m with retry := 0 }
    else s

/-! ### Running, stopping, saving (10 R305 step 3, R307; 17 R431) -/

/-- Whether a group stands on a cluster under an emergency fence. -/
def State.emergency (s : State) (g : Group) : Bool :=
  match s.mgmt.clop with
  | some o => o.emerg && g.cores.any fun c => c / 4 == o.cluster
  | none => false

/-- A group that an emergency fence can neither save nor flush (17 R431). -/
def State.fenceKill (s : State) (gk : Nat) : State :=
  (s.recordGroup gk (TrapInfo.sched cKilled 0 0) 1).killGrid (gkGrid gk) (0x100 + cKilled)

/-- The phase in which a member goes on: a member without warps is held (02 R48). -/
def Group.onPhase (g : Group) : GPhase := if g.wks.isEmpty then .held else .run

/-- GO for one member. -/
def State.goMember (s : State) (gk : Nat) (g : Group) : State :=
  match g.phase with
  | .commit none => s.setGroup gk { g with phase := g.onPhase }
  | .commit (some f) => (s.setGroup gk { g with phase := g.onPhase }).freeFrame gk f
  | .stopped d => if s.emergency g && !(d == .drain && s.canSave gk) then s.fenceKill gk else s.setGroup gk { g with phase := g.onPhase }
  | _ => s

/-- Whether a group's partition is being written to a checkpoint (10 R319). -/
def State.inCkpt (s : State) (gk : Nat) : Bool :=
  match kget s.grids (gkGrid gk) with
  | some d => s.sched.ckpt.run.getLsbD d.part
  | none => false

/-- Whether a checkpoint in progress, or a cluster that is shut, wants a group off its cores (10 R319; 17 R431). -/
def State.mustLeave (s : State) (gk : Nat) (g : Group) : Bool :=
  s.inCkpt gk || g.cores.any fun c => s.clusterShut (c / 4)

/-- GO (10 R305 step 3, R307; 10 R319; 17 R431): the members issue; a seam that must leave is stopped again. -/
def execGo (src : Sender) (seam : Word) (s : State) : Res :=
  onLink (.go src seam) src.link s fun s =>
  onNew seam 6 s fun id m s =>
    let late := (s.membersHere m).any fun x => (match x.2.2.phase with
      | .commit _ => s.mustLeave x.2.1 x.2.2
      | .stopped .drain => s.emergency x.2.2 && s.canSave x.2.1
      | _ => false)
    let s := (s.membersHere m).foldl (fun s x => s.goMember x.2.1 x.2.2) s
    if late then s.seamMsg m.leader 9 id 0 else s

/-- STOPREQ (10 R307). -/
def execStopreq (src : Sender) (seam : Word) (s : State) : Res :=
  onLink (.stopreq src seam) src.link s fun s =>
  asLeader s seam fun id m =>
    if m.phase == .resident then (s.setSeam id { m with phase := .stopping, answers := [], decs := 0 }).seamAll m 10 id else s

/-- The decision of a member that is stopped: for an emergency fence a save where R309 allows one, R319's for a checkpoint, else
R309's. A member that cannot be saved under an emergency fence is killed when its seam goes on (17 R431 step 3). -/
def State.stopDecision (s : State) (gk : Nat) (g : Group) : Decision :=
  if s.emergency g then (if s.canSave gk then .save else .drain)
  else if s.inCkpt gk then s.decideCkpt gk else s.decision gk

/-- STOP (10 R307, R319): each member stops issuing with its decision. -/
def execStop (src : Sender) (seam : Word) (s : State) : Res :=
  onLink (.stop src seam) src.link s fun s =>
  onNew seam 10 s fun id m s =>
    let s := (s.membersHere m).foldl (fun s x =>
      if x.2.2.phase == .run || x.2.2.phase == .held then s.modGroup x.2.1 fun g => { g with phase := .stopping (s.stopDecision x.2.1 x.2.2) } else s) s
    if (s.membersHere m).all fun x => x.2.2.phase == .gone then s.stopMembers id m else s

/-- STOPPED (10 R307): once every device has answered, SAVE when every member saves, else GO. -/
def execStopped (src : Sender) (seam : Word) (dec : Word) (s : State) : Res :=
  onLink (.stopped src seam dec) src.link s fun s =>
  asLeader s seam fun id m =>
    if m.phase != .stopping then s
    else match { m with decs := m.decs ||| dec : Seam }.answered src.dev with
      | (m, false) => s.setSeam id m
      | (m, true) =>
        if (List.range m.members).all fun i => bitsOf m.decs.toNat (2 * i) 2 != 1 then
          (s.setSeam id { m with phase := .idle, answers := [] }).seamAll m 12 id
        else (s.setSeam id { m with phase := .resident, answers := [] }).seamAll m 6 id

/-- SAVE (10 R307): each member is saved by R311. -/
def execSave (src : Sender) (seam : Word) (s : State) : Res :=
  onLink (.save src seam) src.link s fun s =>
  onNew seam 12 s fun _ m s => (s.membersHere m).foldl (fun s x =>
    if x.2.2.phase == .stopped .save then s.beginSave x.2.1 else s) s

/-! ### Detaching (02 R47; 10 R307; 15 R388) -/

/-- DETACHED: the leader records it. -/
def execDetached (src : Sender) (seam : Word) (member : Nat) (s : State) : Res :=
  onLink (.detached src seam member) src.link s fun s =>
  asLeader s seam fun id _ => (s.recordDetach id member).seamExits id

/-- A held exit completes (02 R47); one that is saved gives up its frame. -/
def State.exitHeld (s : State) (gk : Nat) : State :=
  match kget s.groups gk with
  | none => s
  | some g =>
    let s := match g.phase with
      | .saved f => s.modGrid (gkGrid gk) fun d =>
          { d with frames := dropNat d.frames f, waits := d.waits.filter fun w => w.ix != gkIx gk }
      | .reserved (some f) => s.modGrid (gkGrid gk) fun d =>
          { d with frames := dropNat d.frames f, waits := d.waits.filter fun w => w.ix != gkIx gk }
      | .saving f => s.modGrid (gkGrid gk) fun d => { d with frames := dropNat d.frames f }
      | _ => s
    s.retireGroup gk

/-- EXITDONE (02 R47; 10 R307): every held exit on this device completes, once. -/
def execExitdone (src : Sender) (seam : Word) (s : State) : Res :=
  onLink (.exitdone src seam) src.link s fun s =>
  onSeam s seam fun id m =>
    let s := s.setSeam id { m with done := true, dets := BitVec.allOnes 16 }
    (s.heldExits m).foldl (fun s gk => s.exitHeld gk) s

/-- A member that a kill removed counts as detached: the leader records it, another device reports it (15 R388). -/
def State.reportGone (s : State) (id : Nat) (m : Seam) : State :=
  let l := m.locals.filter fun e => m.gones.getLsbD e.1 && !m.told.getLsbD e.1
  let s := if m.revoke then ({ s with seams := kset s.seams id { m with revoke := false } }).seamMsg m.leader 8 id 0 else s
  l.foldl (fun s e =>
    if m.leader == s.me then (s.recordDetach id e.1).seamExits id else (s.recordDetach id e.1).seamMsg m.leader 13 id e.1) s

/-- The same for every seam of the device. -/
def State.reportGones (s : State) : State := s.seams.foldl (fun s e => s.reportGone e.1 e.2) s

end Sys2Proof.Machine
end

