-- ==== Sys2Proof/Machine/Leases.lean ====
section
/-! DEFINITION. Leases and the pool (03 R78 to R80, R85; 11 R339 to R345; 16 R397 to R411): lease messages and their
rings, the lease directory, memory-fault rings, pool ports, fills, write-backs and pressed pages. -/

namespace Sys2Proof.Machine

open Host

/-! ### Rings of a mending core's private SRAM (11 R337, R340; 16 R397) -/

/-- Whether slot i of a ring of 32-byte slots holds an entry: VALID is bit 7 of byte 31. -/
def Mend.slotValid (m : Mend) (base i : Nat) : Bool := bitAt (mget m.sram (base + 32 * i + 31)).toNat 7

/-- The 32 bytes of a slot. -/
def Mend.slotBytes (m : Mend) (base i : Nat) : List Byte := mread m.sram (base + 32 * i) 32

/-- 31 bytes enter a slot, with VALID. -/
def Mend.fillSlot (m : Mend) (base i : Nat) (bs : List Byte) : Mend :=
  { m with sram := mwrite m.sram (base + 32 * i) (bs.take 31 ++ List.replicate (31 - bs.length) 0 ++ [0x80]) }

/-- VALID of a slot cleared. -/
def Mend.clearSlot (m : Mend) (base i : Nat) : Mend :=
  { m with sram := mset m.sram (base + 32 * i + 31) (mget m.sram (base + 32 * i + 31) &&& 0x7F) }

/-- Bases of the rings: inbound and outbound lease ring, memory-fault ring. -/
def leaseIn : Nat := 0x8000
def leaseOut : Nat := 0x8800
def faultRing : Nat := 0xA000

/-! ### Lease messages (11 R340 to R342; 16 R402) -/

/-- The payload of a message of a code (11 Table 11-11): bytes that the table does not name are zero. -/
def leaseBytes (code : Nat) (m : LeaseMsg) : List Byte :=
  let id := leBytes 2 m.tag.toNat ++ leBytes 2 m.lease.toNat
  match code with
  | 2 => [2, 0] ++ id ++ [m.flags, 0] ++ leBytes 4 m.dur.toNat ++ leBytes 2 m.node.toNat ++ [0, 0] ++ leBytes 4 m.extent.toNat ++
      leBytes 4 m.gen.toNat
  | 3 => [3, 0] ++ id ++ [m.flags]
  | _ => [BitVec.ofNat 8 code] ++ List.replicate 11 0 ++ leBytes 2 m.node.toNat

/-- Inbound messages that wait enter the ring while its next slot is free. -/
def Mend.leaseDrain (m : Mend) : List (Nat × LeaseMsg) → Mend
  | [] => { m with lmWait := [] }
  | x :: r =>
    if m.slotValid leaseIn m.linPos then { m with lmWait := x :: r }
    else ({ m.fillSlot leaseIn m.linPos (leaseBytes x.1 x.2) with linPos := (m.linPos + 1) % 64 }).leaseDrain r

/-- A message arrives at a mending core. -/
def State.leaseDeliver (s : State) (core code : Nat) (m : LeaseMsg) : State :=
  s.modMend core fun c => c.leaseDrain (c.lmWait ++ [(code, m)])

/-- A message of this device as its slot holds it. -/
def leaseMsgOf (bs : List Byte) : LeaseMsg :=
  let f := fun (a n : Nat) => leNat ((bs.drop a).take n)
  { tag := BitVec.ofNat 16 (f 2 2), lease := BitVec.ofNat 16 (f 4 2), flags := BitVec.ofNat 8 (f 6 1), dur := BitVec.ofNat 32 (f 8 4),
    node := BitVec.ofNat 16 (f 12 2), extent := BitVec.ofNat 32 (f 16 4), gen := BitVec.ofNat 32 (f 20 4) }

/-- The port of a mending core's lease messages: one of its own die, else the lowest-numbered in service (11 R340, R345; 16
R404). -/
def MemSys.leasePort (m : MemSys) (core : Nat) : Option Nat := ([2 * core, 2 * core + 1] ++ List.range 8).find? m.portUp

/-- Whether some pool port is in service: lease messages need one (11 R340, R345; 16 R404). -/
def MemSys.poolUp (m : MemSys) : Bool := (List.range 8).any m.portUp

/-- An outbound slot of a code is sent, and VALID is cleared. -/
def State.leaseSend (s : State) (core slot code : Nat) (k : LeaseMsg → State → State) : Res :=
  match kget s.mends core, s.mem.leasePort core with
  | some c, some port =>
    let bs := c.slotBytes leaseOut slot
    if 64 ≤ slot || !c.slotValid leaseOut slot || (bs.headD 0).toNat != code then .next s
    else
      let s := (s.setMend core (c.clearSlot leaseOut slot)).emit (.lease core port (bs.take 31 ++ [0]))
      .next (k (leaseMsgOf bs) s)
  | _, _ => .next s

/-- LACQ (11 R340; 16 R400): its tag is kept, so that its grant can be told from that of a renewal. -/
def execLacq (core slot : Nat) (s : State) : Res :=
  s.leaseSend core slot 1 fun m s => s.modMend core fun c => { c with lreqs := c.lreqs ++ [{ tag := m.tag.toNat, lease := m.lease.toNat }] }

/-- LRENEW (03 R80; 11 R342): an Active lease becomes Renewing. -/
def execLrenew (core slot : Nat) (s : State) : Res :=
  s.leaseSend core slot 4 fun m s => if (s.lease m.lease.toNat).st == 1 then s.leaseTo m.lease.toNat 2 else s

/-- LREL (11 R340): the record itself is written by the firmware (log 9). -/
def execLrel (core slot : Nat) (s : State) : Res := s.leaseSend core slot 5 fun _ s => s

/-- Whether a grant falls in the cycle in which its lease expires: the grant wins (03 R80; log 91). -/
def State.leaseTie (s : State) (l : Nat) : Bool :=
  let r := s.lease l
  (r.st == 3 && r.ended == s.cycleOf r.owner) || s.leaseDue r

/-- The grant wins over the expiry of its cycle: the lease is Active, and expires no more before its record is written. -/
def State.leaseTied (s : State) (l : Nat) : State :=
  let r := s.lease l
  { s with mem := { s.mem with leases := kset s.mem.leases l { r.tgt 1 with tied := true } } }

/-- LGRANT (11 R341; 03 R80): discarded below the generation of the directory record, and for a record that has expired in an
earlier cycle unless it answers an LACQ; else it fills the ring, and the firmware writes the record (log 9). -/
def execLgrant (core : Nat) (m : LeaseMsg) (s : State) : Res :=
  match kget s.mends core with
  | none => .next s
  | some c =>
    let l := m.lease.toNat
    let old : Bool := match kget s.mem.dir l with
      | some d => decide (m.gen.toNat < d.gen.toNat)
      | none => false
    let asked := c.lreqs.any fun r => r.tag == m.tag.toNat && r.lease == l
    let s := s.setMend core { c with lreqs := c.lreqs.filter fun r => !(r.tag == m.tag.toNat && r.lease == l) }
    if old then .next s
    else if !asked && s.leaseTie l then .next ((s.leaseTied l).leaseDeliver core 2 m)
    else if (s.lease l).st == 3 && !asked then .next s
    else .next (s.leaseDeliver core 2 m)

/-- LDENY (11 R342). -/
def execLdeny (core : Nat) (m : LeaseMsg) (s : State) : Res :=
  match kget s.mends core with
  | none => .next s
  | some c =>
    let s := s.setMend core { c with lreqs := c.lreqs.filter fun r => !(r.tag == m.tag.toNat && r.lease == m.lease.toNat) }
    .next (s.leaseDeliver core 3 m)

/-! ### Lost leases and expiry (03 R80; 11 R341, R343; 16 R400 to R402, R407) -/

/-- Pages of pressed extents that the device caches, of leases that satisfy a condition. -/
def State.pressedPages (s : State) (f : Lease → Bool) : List Nat :=
  let hit : Nat → Bool := fun a => (s.mem.leaseAt a).pressed && f (s.mem.leaseAt a)
  sortNat (((s.mem.secs.map fun e => e.1 * 4096).filter hit).map (· / 65536) ++
    s.cores.flatMap fun c => (c.2.l1.filter fun e => e.2.kind == .pressed && hit (e.1 * 32)).map fun e => e.1 / 2048)

/-- An event falls in the current cycle of each mending core (03 R80). -/
def State.marked (s : State) (m : KV Nat) (n : Nat) : KV Nat :=
  (List.range 4).foldl (fun m c => kset m (4 * n + c) (s.cycleOf c)) m

/-- LLOST (11 R341; 16 R407): every record that names the node is Lost, and pressed pages homed there are dropped. -/
def execLlost (core : Nat) (node : BitVec 16) (s : State) : Res :=
  let ls := (s.mem.leases.filter fun e => e.2.node == node.toNat && e.2.st != 0).map (·.1)
  let s := (s.pressedPages fun l => l.node == node.toNat).foldl (fun s p => s.dropPressed p) s
  let s := { s with mem := { s.mem with lossAt := s.marked s.mem.lossAt node.toNat } }
  let s := ls.foldl (fun s l => s.loseLease l) s
  .next (s.leaseDeliver core 6 { tag := 0, lease := 0, flags := 0, dur := 0, node := node, extent := 0, gen := 0 })

/-- LEASE_EXPIRY (03 R79, R80): the owner's count has reached EXPIRY. -/
def execLeaseExpiry (lease : Nat) (s : State) : Res :=
  let l := s.lease lease
  if khas s.mends l.owner && s.leaseDue l then .next (s.leaseTo lease 3) else .next s

/-! ### The lease directory (11 R343; 01 R17) -/

/-- A record of the directory as 16 bytes, and back. -/
def dirBytes (r : DirRec) : List Byte :=
  leBytes 16 (packFields [(0, 32), (r.gen.toNat, 32), (r.extent.toNat, 32), (r.node.toNat, 16), (0, 13), (r.dstate.toNat, 3)])

def dirOf (n : Nat) : DirRec :=
  { dstate := BitVec.ofNat 3 (bitsOf n 125 3), node := BitVec.ofNat 16 (bitsOf n 96 16), extent := BitVec.ofNat 32 (bitsOf n 64 32),
    gen := BitVec.ofNat 32 (bitsOf n 32 32) }

/-- Pool address of the directory's record of a lease. -/
def State.dirAddr (s : State) (l : Nat) : Nat := s.mgmt.ldirbase.toNat + 16 * l

/-- What a record of the directory that has changed means for its lease: revoked, an extent of the reserve lease as the loss of
its node (01 R17), or lost. -/
def State.dirTurn (s : State) (lease : Nat) (old : BitVec 3) (r : DirRec) : State :=
  let l := s.lease lease
  let same := l.node == r.node.toNat && l.extent == r.extent.toNat
  if old == r.dstate || !same then s
  else if r.dstate == 2 then (if l.reserve then s.loseLease lease else if l.live then s.leaseTo lease 4 else s)
  else if r.dstate == 3 then (s.pressedPages fun x => x == l).foldl (fun s p => s.dropPressed p) (s.loseLease lease)
  else s

/-- The pool port reads the record of a lease again. -/
def State.dirRead (s : State) (lease : Nat) : State :=
  let r := dirOf (mnum s.mem.pool (s.dirAddr lease) 16)
  let old := match kget s.mem.dir lease with
    | some d => d.dstate
    | none => 0
  { s with mem := { s.mem with dir := kset s.mem.dir lease r,
                               dirAt := if old == r.dstate then s.mem.dirAt else s.marked s.mem.dirAt lease } }.dirTurn lease old r

/-- DIRECTORY_BACK_INVALIDATION (11 R343; 01 R17): the pool manager has written the record of a lease; the 64-byte line that
holds it is invalidated, and read again. -/
def execDirectoryBackInvalidation (lease : Nat) (r : DirRec) (s : State) : Res :=
  let s := { s with mem := { s.mem with pool := mwrite s.mem.pool (s.dirAddr lease) (dirBytes r) } }
  .next ((List.range 4).foldl (fun s i => s.dirRead (lease / 4 * 4 + i)) s)

/-! ### Memory-fault rings (16 R397) -/

/-- An entry without DROPS and VALID (16 Table 16-1): kind, unit, node, count, carve, address, tag. -/
structure FaultEnt where
  kind  : Nat
  unit  : Nat
  node  : Nat
  count : Nat
  carve : Bool
  addr  : Nat
  tag   : Nat
  deriving DecidableEq, Repr

/-- The first 31 bytes of an entry; VALID is set as it enters its slot. -/
def FaultEnt.bytes (e : FaultEnt) (drops : Nat) : List Byte :=
  leBytes 31 (packFields [(e.tag, 16), (0, 48), (e.addr, 45), (e.carve.toNat, 1), (0, 18), (e.count, 32), (0, 16), (e.node, 16),
    (0, 24), (min drops 0xFFFF, 16), (e.unit, 8), (0, 4), (e.kind, 4)])

/-- An entry enters the next slot of the ring with DROPS. -/
def Mend.putFault (m : Mend) (bs : List Byte) : Mend :=
  let d := leBytes 2 (min m.frDrops 0xFFFF)
  { m.fillSlot faultRing m.frPos (bs.take 27 ++ d ++ bs.drop 29) with frPos := (m.frPos + 1) % 256, frDrops := 0 }

/-- Entries that wait enter the ring while its next slot is free. -/
def Mend.faultDrain (m : Mend) : List (List Byte) → Mend
  | [] => { m with frWait := [] }
  | x :: r => if m.slotValid faultRing m.frPos then { m with frWait := x :: r } else (m.putFault x).faultDrain r

/-- An entry is written: with a full ring, one of KIND 4, 5 or 7 waits and any other is lost. -/
def Mend.fault (m : Mend) (e : FaultEnt) : Mend :=
  let m := m.faultDrain m.frWait
  if m.frWait.isEmpty && !m.slotValid faultRing m.frPos then m.putFault (e.bytes 0)
  else if e.kind == 4 || e.kind == 5 || e.kind == 7 then { m with frWait := m.frWait ++ [e.bytes 0] }
  else { m with frDrops := m.frDrops + 1 }

/-- The die that owns a unit: pool port p on die p ÷ 2, stack s on die s ÷ 4, slice i on die i ÷ 64. -/
def FaultEnt.die (e : FaultEnt) : Nat := if e.kind ≤ 3 then e.unit / 2 else if e.kind == 5 then e.unit / 64 else e.unit / 4

/-- An entry goes to the mending core of its die. -/
def State.memFault (s : State) (e : FaultEnt) : State := s.modMend e.die fun m => m.fault e

/-! ### Pool requests (11 R339; 16 R404 to R407) -/

/-- A sector of an extent that was released from Active leaves once its last write-back is home (03 R80). -/
def State.leaveFree (s : State) (k : Nat) : State :=
  if (s.mem.leaseAt (k * 4096)).st == 0 && (s.mem.sec k).valid && !s.backing k then { s with mem := s.mem.dropSector k } else s

/-- The write-back that follows one that is home leaves (16 R406). -/
def State.sendAfter (s : State) (id : Nat) : State :=
  s.mem.preqs.foldl (fun s e =>
    if e.2.after != some id then s
    else
      let p := s.mem.portFrom e.2.port
      let r := s.stamped { e.2 with after := none, port := p.getD e.2.port, out := p.isSome }
      let s := { s with mem := { s.mem with preqs := kset s.mem.preqs e.1 r } }
      if r.out then s.poolEmit e.1 r else s) s

/-- POOL_COMPLETION: a sector is filled, a write-back is home, a page is published. A request that is not out has none (16
R402, R406). -/
def execPoolCompletion (id : Nat) (s : State) : Res :=
  match kget s.mem.preqs id with
  | none => .next s
  | some r =>
    if !r.out then .next s else
    let s := { s with mem := { s.mem with preqs := kdel s.mem.preqs id } }
    match r.work with
    | .fill k =>
      if (s.mem.sec k).valid || (s.mem.sec k).lost then .next (s.flitsGo (waitFill k)).reFill
      else
        .next ({ s with mem := s.mem.fillFrom k r.addr (s.keyAt (k * 4096)) }.flitsGo (waitFill k)).reFill
    | .wb k bs =>
      let mem := { s.mem with pool := mwrite s.mem.pool r.addr bs }.seal r.addr r.key
      .next (({ s with mem := if poolHome r.addr == (mem.leaseAt (k * 4096)).home then mem.backed k bs else mem }.leaveFree k).sendAfter id).reFill
    | .publish op page => .next (s.publishOf op page)

/-- The address at which an element waits for the fill of a sector, and whether it waits for a table of its walk. -/
def State.elemWaits (s : State) (o : Op) (k : Nat) (e : Elem) : Option (Nat × Bool) :=
  if e.done || e.sent then none
  else match e.place.map s.homePlace with
    | some (.loc a _) => if a / 4096 == k then some (e.va, false) else none
    | some _ => none
    | none =>
      let va := s.lined o.ctx e.va (o.linesElem e)
      match s.walkWaits o.ctx va with
      | some a => if a / 4096 == k then some (va, true) else none
      | none => none

/-- The same of an operation: of an element, or of a page of a TURN (07 R226). -/
def State.opWaits (s : State) (o : Op) (k : Nat) : Option (Nat × Bool) :=
  match o.kind with
  | .async (.turn _ step f b n) _ _ _ _ _ =>
    if step then none
    else ((List.range n).flatMap fun i => [f + i * 65536, b + i * 65536]).findSome? fun va =>
      if (s.walkWaits o.ctx va).any fun a => a / 4096 == k then some (va, true) else none
  | _ => o.elems.findSome? (s.elemWaits o k)

/-- Operations with an access that waits for a sector, and where. -/
def State.waitersOf (s : State) (k : Nat) : List (Nat × Op × Nat × Bool) :=
  s.ops.filterMap fun o => (s.opWaits o.2 k).map fun x => (o.1, o.2, x.1, x.2)

/-- The cause of a mending core's access that has no answer from the pool: it posts no event (07 R194; 16 Table 16-2). -/
def State.lateCause (s : State) (k : Nat) (walk : Bool) : Nat :=
  if walk then cTranslation else if (s.mem.leaseAt (k * 4096)).st == 5 then cNodeLost else cPoolTimeout

/-- One access that met a pool timeout is held on reason 6: its tags (16 R405). That of a mending core traps. -/
def State.holdLost (s : State) (k : Nat) (x : Nat × Op × Nat × Bool) : State × List Nat :=
  let (i, o, va, walk) := x
  match o.who with
  | .mend _ => (s.failOp i o (s.lateCause k walk) 0 va 0 0, [])
  | _ =>
    let kind := if walk then 10 else match o.kind with
      | .acc _ => o.kindCode
      | .async w _ _ _ _ _ => w.kindCode (o.elems.any fun e => e.va == va && e.lane == 1)
    let engine := match o.kind with
      | .async _ _ _ _ en _ => some en
      | .acc _ => none
    let (s, ts, ws) := s.postAll o.ctx (s.srcOf o.who o.ctx engine) [{ reason := 6, kind := kind, va := va }]
    let back := fun (y : Elem) => if (y.va / 65536 == va / 65536 && !y.done && !y.sent) = true then { y with place := none } else y
    ({ s with ops := kmod s.ops i fun o => { o with hold := o.hold ++ ts, want := o.want ++ ws, elems := o.elems.map back } }, ts)

/-- Whether a warp still waits at issue where it was. -/
def Warp.standsAt (w : Warp) (pc : Nat) : Bool :=
  w.hold.isNone && (match w.inClause, w.clause with
    | some c, _ => c.next == pc
    | none, some c => w.frontier == some pc || (w.frontier == some c.hdr && c.next == pc)
    | none, none => w.frontier == some pc)

/-- An agent that waits at issue for the sector: a warp is held on reason 6, a mending core traps. -/
def State.holdStalled (s : State) (key : Nat) (x : Stall) : State × List Nat :=
  match kget s.warps key with
  | some w =>
    if w.standsAt x.insn.pc then
      let s := s.holdWarp key w x.insn x.va { reason := 6, kind := x.kind, va := x.va }
      (s, match (kget s.warps key).bind (·.hold) with
        | some h => h.tags
        | none => [])
    else (s, [])
  | none => match if key < 2 ^ 20 then none else kget s.mends (key - 2 ^ 20) with
    | some m => if m.halted || (m.clause.map (·.next)) != some x.insn.pc then (s, [])
        else (s.takeTrapMend (key - 2 ^ 20) { TrapInfo.plain cTranslation 0 x.insn with va := x.va }, [])
    | none => (s, [])

/-- Every access that waits for a sector is held on reason 6: the first tag, and their number. -/
def State.holdAll (s : State) (k : Nat) : State × Nat × Nat :=
  let first := fun (t : Nat) (ts : List Nat) => if t == 0xFFFF then (ts.head?.map (· % 1024)).getD 0xFFFF else t
  let (s, t, n) := (s.waitersOf k).foldl (fun (a : State × Nat × Nat) x =>
    let (s, ts) := a.1.holdLost k x
    (s, first a.2.1 ts, a.2.2 + 1)) (s, 0xFFFF, 0)
  let stalls := s.mem.stalled.filter fun e => e.2.sec == k
  let s := { s with mem := { s.mem with stalled := kfilter (fun _ (x : Stall) => x.sec != k) s.mem.stalled } }
  stalls.foldl (fun (a : State × Nat × Nat) e =>
    let (s, ts) := a.1.holdStalled e.1 e.2
    (s, first a.2.1 ts, a.2.2 + 1)) (s, t, n)

/-- An arrived request of a peer that waits for a fill is held on reason 6, on the die of its port (01 R11; 03 R75). -/
def State.holdFlit (s : State) (k : Nat) (x : Nat × Flit × Nat) : State :=
  let ctx := winCtx 15
  let s := { s with fab := { s.fab with inHeld := s.fab.inHeld.erase x } }
  let (s, t) := s.postDemand ctx { s.srcOf .orphan ctx none with mend := x.1 / 4 % 4 } { reason := 6, kind := flitRight x.2.1, va := k * 4096 }
  s.flitWait x.1 x.2.1 (t.getD waitEntry)

/-- Arrived requests of peers that wait for a fill are held on reason 6. -/
def State.holdFlits (s : State) (k : Nat) : State :=
  (s.fab.inHeld.filter fun x => x.2.2 == waitFill k).foldl (fun s x => s.holdFlit k x) s

/-- A pool request has had no completion: kind is that of its ring entry, for a read (16 R404 to R406). -/
def State.poolLate (s : State) (id : Nat) (r : PoolReq) (kind : Nat) : State :=
  let node := if kind == 2 then 0 else r.addr / 2 ^ 62
  match r.work with
  | .fill k =>
    let s := { s with mem := { s.mem with preqs := kdel s.mem.preqs id } }
    let (s, tag, n) := s.holdAll k
    let s := if s.fab.inHeld.any fun x => x.2.2 == waitFill k then s.holdFlits k else s
    s.memFault { kind := kind, unit := r.port, node := node, count := n, carve := false, addr := k * 4096, tag := tag }
  | .wb k _ =>
    let p := s.mem.portFrom ((r.port + 1) % 8)
    let r' := s.stamped { r with port := p.getD r.port, tries := r.tries + 1, out := p.isSome }
    let s := { s with mem := { s.mem with preqs := kset s.mem.preqs id r' } }
    let s := if r'.out then s.poolEmit id r' else s
    s.memFault { kind := 3, unit := r.port, node := r.addr / 2 ^ 62, count := 1, carve := false, addr := k * 4096, tag := 0xFFFF }
  | .publish op page =>
    let s := { s with mem := { s.mem with preqs := kdel s.mem.preqs id } }
    let at_ := (kget s.ops op).bind fun o => (o.elems.find? fun e => e.lane == 0 && e.reg == page).bind (·.place)
    let addr := match at_ with
      | some (.loc a _) => a
      | _ => 0
    let (s, ts) := s.holdPublish op page
    s.memFault { kind := kind, unit := r.port, node := node, count := 1, carve := false, addr := addr,
                 tag := (ts.head?.map (· % 1024)).getD 0xFFFF }

/-- Whether the time of a pool request has passed, counted from its transmission (16 R404). -/
def State.poolDue (s : State) (r : PoolReq) : Bool :=
  r.out && decide (r.since + (match r.work with
    | .publish _ _ => Config.publishCycles
    | _ => Config.poolCycles) ≤ s.dieCycles (r.port / 2))

/-- POOL_TIMEOUT (16 R404 to R406). -/
def execPoolTimeout (id : Nat) (s : State) : Res :=
  match kget s.mem.preqs id with
  | none => .next s
  | some r => .next (if s.poolDue r then s.poolLate id r 1 else s)

/-- Whether a request that is kept may leave: it follows no other, and the extent that it goes to is not Lost (16 R402, R406). -/
def State.mayLeave (s : State) (r : PoolReq) : Bool :=
  !r.out && r.after.isNone && !s.mem.leases.any fun l => l.2.st == 5 && l.2.home == poolHome r.addr

/-- POOL_PORT_DOWN (16 R404, R407): the requests of the port are timed out at once. -/
def execPoolPortDown (port : Nat) (s : State) : Res :=
  match kget s.mem.pports port with
  | none => .next s
  | some p =>
    if !p.up then .next s
    else
      let s := { s with mem := { s.mem with pports := kset s.mem.pports port { up := false } } }
      let rs := s.mem.preqs.filter fun e => e.2.port == port && e.2.out
      let s := if rs.all fun e => e.2.isBack then s.memFault { kind := 2, unit := port, node := 0, count := rs.length, carve := false, addr := 0, tag := 0xFFFF } else s
      let s := rs.foldl (fun s e => s.poolLate e.1 e.2 2) s
      .next (if s.mem.poolUp then s else (s.pressedPages fun _ => true).foldl (fun s p => s.dropPressed p) s)

/-- Requests that were kept for want of a port in service leave on a port that returned (11 R345; 16 R406). -/
def State.poolResend (s : State) : State :=
  s.mem.preqs.foldl (fun s e =>
    if !s.mayLeave e.2 then s
    else match s.mem.portFrom e.2.port with
      | none => s
      | some p =>
        let r := s.stamped { e.2 with port := p, out := true }
        ({ s with mem := { s.mem with preqs := kset s.mem.preqs e.1 r } }).poolEmit e.1 r) s

/-- POOL_PORT_RETRAIN (17 R433). -/
def execPoolPortRetrain (port : Nat) (ok : Bool) (s : State) : Res :=
  match kget s.mem.pports port with
  | some p =>
    if ok && !p.up then
      .next { s with mem := { s.mem with pports := kset s.mem.pports port { up := true } } }.poolResend.reFill
    else .next s
  | none => .next s

/-- BISNP (11 R344; 03 R85): the page has another version at its pool home; it is dropped here, its L1 lines are
marked, and BIRsp answers (log 27). -/
def execBisnp (page : Nat) (contents : List Byte) (s : State) : Res :=
  let s := s.dropPressed page
  let m := s.mem
  let m := if contents.isEmpty then m
    else { m with pool := mwrite m.pool (m.poolAddr (page * 65536)) (contents.take 65536),
                  seals := kfilter (fun x _ => x / 16 != m.poolAddr (page * 65536) / 65536) m.seals, pver := kset m.pver page (kgetD m.pver page 0 + 1) }
  .next ({ s with mem := m }.emit (.birsp page))

end Sys2Proof.Machine
end

