-- ==== Sys2Proof/Machine/Landing.lean ====
section
/-! DEFINITION. The landing port (03 R91 to R93; 11 R328, R329; 17 R426, R427): posted writes decoded against the
windows, discarded, applied or faulted, and requests that the port does not support. -/

namespace Sys2Proof.Machine

open Host

/-- Bytes of a write as elements of at most 8 bytes, each within one doubleword, from virtual address va. -/
def landElems (va : Nat) (data : List Byte) : List Elem :=
  let first := va / 8
  (List.range ((va + data.length + 7) / 8 - first)).map fun i =>
    let a := max va ((first + i) * 8)
    let b := min (va + data.length) ((first + i + 1) * 8)
    Elem.virt 0 a (b - a) (BitVec.ofNat 64 (leNat ((data.drop (a - va)).take (b - a)))) 0 0

/-- A discarded write in LANDERR (17 Table 17-4) and in the port's AER log (R426). -/
def State.landDiscard (s : State) (w : Nat) (req : BitVec 16) (reason : Nat) : State :=
  let n := satAdd 255 (bitsOf s.land.err.toNat 16 8)
  { s with land := { s.land with err := BitVec.ofNat 32 (packFields [(req.toNat, 16), (n, 8), (reason, 2), (w, 6)]) } }.emit (.advisory req)

/-- Why a window does not accept a write, by REASON (03 R92; 17 Table 17-4); a window that no context has armed accepts
none. -/
def LandWin.turnsAway (x : LandWin) (req : BitVec 16) (off len : Nat) : Option Nat :=
  if 2 ^ 32 < off + len then some 2
  else if !x.en || decide (x.pages.toNat * 65536 ≤ off) || x.ctx.isNone then some 0
  else if req &&& x.mask != x.reqid &&& x.mask then some 1
  else none

/-- Whether the bytes of a write overlap the marker doubleword (03 R93). -/
def LandWin.marks (x : LandWin) (off len : Nat) : Bool :=
  let m := x.marker.toNat / 8 * 8
  decide (off < m + 8) && decide (m < off + len)

/-- A write that its window accepts becomes a store of the landing port in the arming context (11 R329). -/
def State.landApply (s : State) (w : Nat) (x : LandWin) (ctx : Nat) (req : BitVec 16) (off : Nat) (data : List Byte) : State :=
  let k := s.opNo
  let va := x.base.toNat * 65536 + off
  let o : Op := { who := .landing w, ctx := ctx, gk := 0, insn := { pc := 0, word := 0, ext := 0 }, kind := .acc .store, lanes := 0,
                  slot := none, elems := landElems va data, hold := [], want := [], epoch := 0 }
  let r : LandWr := { op := k, req := req, win := w, mark := x.marks off data.length }
  ({ s with land := { s.land with wrs := s.land.wrs ++ [r] } }.addOp o).transOp k

/-- LANDING_WRITE (03 R92; 11 R329; 17 R426): the window is the one of bits 37:32 of the BAR offset. A request that the
port cannot carry, beyond the BAR or 4,096 bytes, does not arrive (11 R328), and none does before the port trains on entry to
RUN (12 R355). -/
def execLandingWrite (req : BitVec 16) (off : Nat) (data : List Byte) (poisoned : Bool) (s : State) : Res :=
  if s.mgmt.stage != 9 || data.isEmpty || 4096 < data.length || 2 ^ 38 ≤ off then .next s
  else
    let w := off / 2 ^ 32
    let x := s.win w
    match x.turnsAway req (off % 2 ^ 32) data.length, x.ctx with
    | some r, _ => .next (s.landDiscard w req r)
    | none, none => .next s
    | none, some ctx =>
      if poisoned then .next (s.landFault s.opNo w cUncorrectable 0 (x.base.toNat * 65536 + off % 2 ^ 32))
      else .next (s.landApply w x ctx req (off % 2 ^ 32) data)

/-- NON_POSTED_REQUEST (11 R328): Unsupported Request, with no effect; the port trains on entry to RUN (12 R355). -/
def execNonPostedRequest (req : BitVec 16) (s : State) : Res := .next (if s.mgmt.stage != 9 then s else s.emit (.unsupported req))

end Sys2Proof.Machine
end

