-- ==== Sys2Proof/Machine/MemFaults.lean ====
section
/-! DEFINITION. Faults of memory (16 R408 to R413; 17 R433): uncorrectable and corrected errors, lost sectors and their
acknowledgement, fencing and return of HBM stacks. -/

namespace Sys2Proof.Machine

open Host

/-! ### Stacks (16 R410, R413; 17 R433) -/

/-- The stack that holds a page's frame. -/
def State.stackOf (s : State) (page : Nat) : Nat := s.mem.stackOf page

/-- A fence of a stack starts, or is ignored (16 R413). -/
def State.fenceStart (s : State) (stack : Nat) : State :=
  let m := s.mgmt
  if m.fenceBusy.isSome || !m.stackOn stack || m.stacks.length ≤ 1 then s
  else { s with mgmt := { m with fenceBusy := some stack } }

/-- A fence that the device starts itself waits for one in progress. -/
def State.fenceOwn (s : State) (stack : Nat) : State :=
  if s.mgmt.fenceBusy.isSome then
    (if s.mgmt.fenceBusy == some stack || s.mgmt.fenceWait.contains stack then s
     else { s with mgmt := { s.mgmt with fenceWait := s.mgmt.fenceWait ++ [stack] } })
  else s.fenceStart stack

/-- HBM_FENCE (16 R413): a GO write. -/
def execHbmFence (stack : Nat) (s : State) : Res := mgmtCmd s fun s => if stack < 16 then s.fenceStart stack else s

/-- STACK_FAILURE (16 R410). -/
def execStackFailure (stack : Nat) (s : State) : Res := .next (if stack < 16 then s.fenceOwn stack else s)

/-- One sector of a fenced stack: a clean one of a frame that is not pinned leaves, any other moves with its frame to the
lowest stack with room (16 R413 step 2; log 34). -/
def MemSys.fenceSector (m : MemSys) (g : Mgmt) (k : Nat) (x : Sector) : MemSys :=
  let f := kgetD m.frames (k / 16) { evict := false, stack := none }
  if x.valid && !x.dirty && !x.lost && !m.pinned (k / 16) && !m.hostLines.any (fun h => h / 2 / 32 == k) then m.dropSector k
  else if f.stack.any g.takesFrames then m
  else { m with frames := kset m.frames (k / 16) { f with stack := some (g.otherStack m) } }

/-- Fences of the device's own that waited start in turn. -/
def State.fenceNext (s : State) : State :=
  match s.mgmt.fenceWait with
  | [] => s
  | k :: r => { s with mgmt := { s.mgmt with fenceWait := r } }.fenceStart k

/-- HBM_FENCE_COMPLETE (16 R413 steps 2, 3): sectors leave the stack, FENCED is set, entry KIND 7 is written. -/
def execHbmFenceComplete (s : State) : Res :=
  match s.mgmt.fenceBusy with
  | none => .next s
  | some k =>
    let mem := (s.mem.secs.filter fun e => s.stackOf (e.1 / 16) == k).foldl (fun (m : MemSys) e => m.fenceSector s.mgmt e.1 e.2) s.mem
    let s := { s with mem := mem, mgmt := { s.mgmt with fenceBusy := none,
                                                        fencedStacks := s.mgmt.fencedStacks ||| BitVec.ofNat 16 (2 ^ k) } }
    let s := s.memFault { kind := 7, unit := k, node := 0, count := 0, carve := false, addr := 0, tag := 0xFFFF }
    .next s.fenceNext

/-- A fenced stack that the fuses do not disable is retrained (17 R433). -/
def State.stackReturn (s : State) (stack : Nat) (ok : Bool) : State :=
  if 16 ≤ stack || !s.mgmt.fencedStacks.getLsbD stack || s.mgmt.fuseStacks.getLsbD stack || !ok then s
  else { s with mgmt := { s.mgmt with fencedStacks := s.mgmt.fencedStacks &&& ~~~(BitVec.ofNat 16 (2 ^ stack)) } }

/-- HBMRET (17 R433). -/
def execHbmret (stack : Nat) (ok : Bool) (s : State) : Res := mgmtCmd s fun s => s.stackReturn stack ok

/-- CORRECTED_ERROR (16 R410): entry KIND 6 each time the count passes a multiple of 65,536. -/
def execCorrectedError (stack : Nat) (s : State) : Res :=
  if 16 ≤ stack then .next s
  else
    let n := sget 0 s.mem.errs stack + 1
    let s := { s with mem := { s.mem with errs := sset 0 s.mem.errs stack n } }
    .next (if n % 65536 == 0 then
      s.memFault { kind := 6, unit := stack, node := 0, count := n % 2 ^ 32, carve := false, addr := 0, tag := 0xFFFF } else s)

/-! ### Lost sectors (16 R408) -/

/-- Requests that wait at the home of a sector, and the first demand event that one of them holds. -/
def State.lostCount (s : State) (k : Nat) : Nat := (s.waitersOf k).length

/-- The same at a sector of the carve. -/
def State.carveCount (s : State) (k : Nat) : Nat :=
  (s.ops.filter fun o => o.2.elems.any fun e => !e.done && !e.sent && (match e.place.map s.homePlace with
    | some (.carve a) => a / 4096 == k
    | _ => false)).length

/-- The page's other dirty sectors are written back. -/
def State.backOthers (s : State) (k : Nat) : State :=
  (((List.range 16).map fun i => k / 16 * 16 + i).filter (· != k)).foldl (fun s j => s.sendBack j) s

/-- The 16th lost sector of a stack fences it (16 R410). -/
def State.countLost (s : State) (stack : Nat) : State :=
  let n := sget 0 s.mem.lostN stack + 1
  let s := { s with mem := { s.mem with lostN := sset 0 s.mem.lostN stack n } }
  if n == 16 then s.fenceOwn stack else s

/-- A dirty sector of local physical memory becomes lost, with its ring entry; a clean one is refetched. -/
def State.loseSector (s : State) (k kind unit : Nat) : State :=
  let x := s.mem.sec k
  if !x.valid || !x.dirty || x.lost then s
  else
    let n := s.lostCount k
    let s := { s with mem := { s.mem with secs := kset s.mem.secs k { x with lost := true } } }
    (s.memFault { kind := kind, unit := unit, node := 0, count := n, carve := false, addr := k * 4096, tag := 0xFFFF }).backOthers k

/-- A carve sector becomes lost. -/
def State.loseCarve (s : State) (k : Nat) : State :=
  if s.mem.lostCarve.contains k then s
  else
    let s := { s with mem := { s.mem with lostCarve := s.mem.lostCarve ++ [k] } }
    s.memFault { kind := 5, unit := (Config.carveSlice k).toNat, node := 0, count := s.carveCount k, carve := true, addr := k * 4096, tag := 0xFFFF }

/-! ### Uncorrectable errors (16 R408, R409; 17 R423) -/

/-- The instruction that consumes an uncorrectable word takes a precise trap (16 R409). -/
def State.wordTrap (s : State) (a : Agent) (va : Nat) : State :=
  match s.fetch a with
  | .done _ => s
  | .exec _ s' =>
    let lanes : Lanes := match a with
      | .warp wk => (match kget s'.warps wk with
        | some w => (match w.clause with
          | some c => c.act
          | none => 0)
        | none => 0)
      | .mend _ => 0
    s'.trapCur cUncorrectable lanes va

/-- An entry that reads an uncorrectable word traps with ORIGIN 2. -/
def State.matrixTrap (s : State) (gk id : Nat) : State :=
  match (kget s.groups gk).bind fun g => g.mq.find? fun e => e.id == id with
  | none => s
  | some e => match e.op.bind fun k => (kget s.ops k).map fun o => (k, o) with
    | some (k, o) => s.failOp k o cUncorrectable 0 0 0 0
    | none => s.takeTrap e.wk { TrapInfo.plain cUncorrectable 0 e.insn with origin := 2 }

/-- UNCORRECTABLE_ERROR (16 R408, R409): what another level holds unchanged is refetched with no visible event; a lost
sector, or a trap of the consumer, otherwise. A seam-window read of such a word is refused. -/
def execUncorrectableError (loc : ErrLoc) (s : State) : Res :=
  match loc with
  | .l1 core sector => .next (if khas (s.core core).l1 sector then s.modCore core fun c => { c with l1 := kdel c.l1 sector } else s)
  | .llc slice k dirty => .next (if dirty && slice < 256 then s.loseSector k 5 slice else s)
  | .hbm k =>
    let x := s.mem.sec k
    .next (if x.valid && x.dirty && !x.lost then (s.loseSector k 4 (s.stackOf (k / 16))).countLost (s.stackOf (k / 16)) else s)
  | .carve k => .next (s.loseCarve k)
  | .coreWord wk off => .next (s.wordTrap (.warp wk) (off.getD 0))
  | .mend m => .next (s.wordTrap (.mend m) 0)
  | .async k off => match kget s.ops k with
    | some o => .next (match o.kind with
      | .async .. => s.failOp k o cUncorrectable 0 (off.getD 0) o.progress 0
      | .acc _ => s)
    | none => .next s
  | .matrix cluster pipe => match kget (s.cluster cluster).pipes pipe with
    | some (gk, id) => .next (s.matrixTrap gk id)
    | none => .next s
  | .seam port f => .next (if f.seam && f.op == 1 && f.dest == s.mgmt.peernum then s.refuseFlit port f cUncorrectable else s)

/-! ### Acknowledgement (16 R408 steps 3, 4) -/

/-- A field of a ring entry. -/
def Mend.entryNum (m : Mend) (slot : Nat) : Nat := leNat (m.slotBytes faultRing slot)

/-- Whether an element waits at a sector. -/
def Elem.atSector (e : Elem) (carve : Bool) (k : Nat) : Bool :=
  !e.done && !e.sent && (match e.place with
    | some (.loc a _) => !carve && a / 4096 == k
    | some (.carve a) => carve && a / 4096 == k
    | _ => false)

/-- Requests held at a sector return to their sources and translate again; one without an issuer is dropped: a store
or atomic held at a lost sector is never applied. -/
def State.unlose (s : State) (carve : Bool) (k : Nat) : State :=
  let ks := (s.ops.filter fun o => o.2.elems.any fun e => e.atSector carve k).map (·.1)
  ks.foldl (fun s i => match kget s.ops i with
    | none => s
    | some o =>
      let gone := o.who == .orphan
      let back : Elem → Elem := fun e =>
        if !e.atSector carve k then e else if gone then { e with done := true } else { e with place := none }
      let es := o.elems.map back
      let s := { s with ops := kset s.ops i { o with elems := es } }
      if gone || !o.isAcc then s else s.transOp i) s

/-- Peers' requests held at a sector are refused (17 R423). -/
def State.refuseLost (s : State) (carve : Bool) (k : Nat) : State :=
  let fl := s.fab.inHeld.filter fun x => x.2.2 == waitLost carve k
  let s := { s with fab := { s.fab with inHeld := s.fab.inHeld.filter fun x => x.2.2 != waitLost carve k } }
  fl.foldl (fun s x => s.refuseFlit x.1 x.2.1 cUncorrectable) s

/-- The sector is lost no more: local memory is filled from the pool when it is next used; the bytes of a carve sector
are ones that the manual does not state (log 35). -/
def State.reviveSector (s : State) (carve : Bool) (k : Nat) : State :=
  if carve then
    let (s, bs) := s.freeBytes 4096
    { s with mem := { s.mem with carve := mwrite s.mem.carve (k * 4096) bs, lostCarve := dropNat s.mem.lostCarve k } }
  else { s with mem := s.mem.dropSector k }

/-- LOST_SECTOR_ACK (16 R408): the firmware writes ACK in an entry of KIND 4 or 5. -/
def execLostSectorAck (core slot : Nat) (s : State) : Res :=
  match kget s.mends core with
  | none => .next s
  | some m =>
    let x := m.entryNum slot
    let kind := bitsOf x 244 4
    let carve := bitAt x 109
    let k := bitsOf x 64 45 / 4096
    let lost := if carve then s.mem.lostCarve.contains k else (s.mem.sec k).lost
    if 256 ≤ slot || !bitAt x 255 || !(kind == 4 || kind == 5) then .next s
    else
      let a := faultRing + 32 * slot + 31
      let s := s.setMend core { m with sram := mset m.sram a (mget m.sram a ||| 0x40) }
      if !lost then .next s
      else
        let s := s.reviveSector carve k
        let s := { s with mem := { s.mem with heldAt := s.mem.heldAt.filter fun h => h.2 != (if carve then 2 ^ 40 + k else k) } }
        .next ((s.unlose carve k).refuseLost carve k)

end Sys2Proof.Machine
end

