-- ==== Sys2Proof/Machine/Fabric.lean ====
section
/-! DEFINITION. Kagon at the requester (11 R330 to R334; 17 R416 to R423): answers, plane maps, ports and lanes, the
loss of planes and of answers. -/

namespace Sys2Proof.Machine

open Host

/-! ### The flit on the link (11 R331) -/

/-- The header of a flit (11 Table 11-6). -/
def flitHeader (f : Flit) : Nat :=
  packFields [(0, 11), (f.aop.toNat, 3), (f.typ.toNat, 5), (f.addr.toNat, 45), (f.seq.toNat, 11), (f.tag.toNat, 12), (f.size.toNat, 2),
    (f.seam.toNat, 1), (f.carve.toNat, 1), (f.rv.toNat, 1), (f.source.toNat, 14), (f.dest.toNat, 14), (f.op.toNat, 8)]

/-- The payload of a flit (11 Tables 11-5 and 11-7): data, the byte-enable mask of a write or reduction, and SEAMID. -/
def linkPayload (f : Flit) : List Byte :=
  let mask := if f.op == 2 || f.op == 5 then f.mask.toNat else 0
  let bs := (f.data.take 128 ++ List.replicate (128 - f.data.length) 0) ++ leBytes 16 mask ++ leBytes 4 (if f.seam then f.seamid.toNat else 0)
  bs ++ List.replicate (224 - bs.length) 0

/-- The 256 bytes of a flit (11 Table 11-5). -/
def flitWire (f : Flit) : List Byte :=
  let bs := leBytes 16 (flitHeader f) ++ linkPayload f
  let cs := bs ++ leBytes 4 (Config.crc32 bs).toNat
  cs ++ leBytes 12 (Config.fec cs).toNat

/-- The flit that 256 bytes hold. -/
def flitOf (bs : List Byte) : Flit :=
  let h := leNat (bs.take 16)
  let op := bitsOf h 120 8
  { op := BitVec.ofNat 8 op, dest := BitVec.ofNat 14 (bitsOf h 106 14), source := BitVec.ofNat 14 (bitsOf h 92 14), rv := bitAt h 91,
    carve := bitAt h 90, seam := bitAt h 89, size := BitVec.ofNat 2 (bitsOf h 87 2), tag := BitVec.ofNat 12 (bitsOf h 75 12),
    seq := BitVec.ofNat 11 (bitsOf h 64 11), addr := BitVec.ofNat 45 (bitsOf h 19 45), typ := BitVec.ofNat 5 (bitsOf h 14 5),
    aop := BitVec.ofNat 3 (bitsOf h 11 3), data := (bs.drop 16).take 128, mask := BitVec.ofNat 128 (leNat ((bs.drop 144).take 16)),
    seamid := BitVec.ofNat 32 (leNat ((bs.drop 160).take 4)) }

/-! ### Requests held at the source (11 R334) -/

/-- Held requests are sent, in the order in which they were held, as far as they can be. -/
def State.sendHeld (s : State) : State :=
  s.fab.held.foldl (fun s r => s.kSend r) { s with fab := { s.fab with held := [] } }

/-- Whether the requester of a request is still there. -/
def State.reqLives (s : State) (r : KReq) : Bool :=
  r.back.isSome || match r.op with
    | some k => khas s.ops k
    | none => true

/-- Elements of an operation that a request serves. -/
def Op.served (o : Op) (r : KReq) : List (Nat × Elem) := r.elems.filterMap fun i => (o.elems[i]?).map fun e => (i, e)

/-- A request ends with a cause in its issuing lanes (17 R420, R423): DETAIL names the target for the causes of
15 R379; a forwarded request is refused at its source; one that no context waits for ends. -/
def State.reqFail (s : State) (r : KReq) (cause : Nat) : State :=
  match r.back, r.op with
  | some (p, f), _ => s.refuseFlit p f cause
  | none, none => s
  | none, some k => match kget s.ops k with
    | none => s
    | some o =>
      let es := (o.served r).map (·.2)
      if o.who == .orphan && o.kind != .acc .probe then
        ((o.served r).foldl (fun s x => s.setElem k x.1 { x.2 with done := true }) s).settleOp k
      else
        let o := { o with elems := (o.served r).foldl (fun l x => setAt l x.1 { x.2 with sent := false }) o.elems }
        s.gather k o o.progress [failedOf cause (if 0x20 ≤ cause then r.flit.dest.toNat else 0) es]

/-! ### Answers (11 R332; 17 R421 to R423) -/

/-- Whether an answer's OP fits a request's. -/
def opAnswers (req ans : Nat) : Bool :=
  match ans with
  | 0x10 => req == 1
  | 0x11 => req == 2 || req == 4 || req == 5
  | 0x12 => req == 3
  | 0x13 => req == 3 || req == 4 || req == 5
  | _ => true

/-- The request that an answer is for: of its plane, TAG and route version, sent to the answer's source. -/
def State.requestOf (s : State) (port : Nat) (f : Flit) : Option (Nat × KReq) :=
  let k := port * Config.planeTags + f.tag.toNat
  match kget s.fab.reqs k with
  | some r => if r.flit.rv == f.rv && r.flit.dest == f.source && opAnswers r.flit.op.toNat f.op.toNat then some (k, r) else none
  | none => none

/-- An answer of an OP arrives: one that no outstanding request fits is discarded; that of a forwarded request goes
back to its source. -/
def onAnswer (e : Instr) (op port : Nat) (f : Flit) (s : State) (k : KReq → State → State) : Res :=
  onFlit e op port f s fun s =>
    if f.dest != s.mgmt.peernum then .next (s.flitDrop port)
    else match s.requestOf port f with
    | none => .next s
    | some (x, r) =>
      let s := { s with fab := { s.fab with reqs := kdel s.fab.reqs x } }
      .next ((match r.back with
        | some (p, f0) => s.answer p f0 op f.data
        | none => k r s).sendHeld)

/-- Runs on the elements that a request serves, and settles the operation. -/
def State.onServed (s : State) (r : KReq) (g : State → Nat → Op → Nat → Elem → State) : State :=
  match r.op with
  | none => s
  | some k => match kget s.ops k with
    | none => s
    | some o => ((o.served r).foldl (fun s x => if x.2.done then s else g s k o x.1 x.2) s).settleOp k

/-- The bytes of an element within the answer to a read. -/
def readBytes (r : KReq) (f : Flit) (p : Place) (n : Nat) : Nat :=
  leNat ((placeAddrs p n).map fun a => f.data.getD (a - r.flit.addr.toNat) 0)

/-- An answer to operation k tells the L1 of the issuing core something of a place: it takes it when no later answer has come
for the sector since, else it drops its copy (08 R247, R250). -/
def State.remoteL1 (s : State) (k : Nat) (o : Op) (p : Place) (f : Core → Core) : State :=
  match o.l1Core with
  | none => s
  | some c => s.modCore c fun x => (if x.fresh p k then f x else x.l1Drop p).touch p s.opNo

/-- A load that may be held in the L1 fills the sector when the answer covers it whole and no acquire point has passed (08
R248 to R250; 03 R74). -/
def State.fillFrom (s : State) (k : Nat) (o : Op) (r : KReq) (f : Flit) (e : Elem) (p : Place) : State :=
  match o.kind, p with
  | .acc (.load true _ _), .peer n a cv true =>
    let b := a / 32 * 32
    let whole := decide (r.flit.addr.toNat ≤ b) && decide (b + 32 ≤ r.flit.addr.toNat + flitSize r.flit)
    s.remoteL1 k o p fun x =>
      if x.epoch == o.epoch && whole then
        x.l1Fill (.peer n b cv true) ((List.range 32).map fun i => f.data.getD (b + i - r.flit.addr.toNat) 0) (s.frontOf o.ctx e.va) s.choice
      else x.l1Drop p
  | _, _ => s

/-- READ_DATA (11 R332). -/
def execReadData (port : Nat) (f : Flit) (s : State) : Res :=
  onAnswer (.readData port f) 0x10 port f s fun r s => s.onServed r fun s k o i e =>
    match e.place with
    | some p => (s.fillFrom k o r f e p).setElem k i { e with got := some (BitVec.ofNat 64 (readBytes r f p e.n)), done := true }
    | none => s

/-- The value that a remote write, or an atomic whose old value is known, leaves in the L1 copies of the issuing core; of a
reduction or an atomic without result the core knows none, and drops its copy (07 R192; 08 R247). -/
def State.pokeRemote (s : State) (k : Nat) (o : Op) (e : Elem) (x : Option Nat) : State :=
  match e.place with
  | some p => s.remoteL1 k o p fun c => match x with
    | some x => c.l1Poke (s.frontsAt c p) p (leBytes e.n x)
    | none => c.l1Drop p
  | none => s

/-- WRITE_DONE (11 R332): of a write, a reduction, or an atomic without result. -/
def execWriteDone (port : Nat) (f : Flit) (s : State) : Res :=
  onAnswer (.writeDone port f) 0x11 port f s fun r s => s.onServed r fun s k o i e =>
    (s.pokeRemote k o e (if r.flit.op == 2 then some e.data.toNat else none)).setElem k i { e with got := some 0, done := true }

/-- ATOMIC_RESULT (11 R332). -/
def execAtomicResult (port : Nat) (f : Flit) (s : State) : Res :=
  onAnswer (.atomicResult port f) 0x12 port f s fun r s => s.onServed r fun s k o i e =>
    let old := leNat (f.data.take e.n)
    let x := atomNew r.flit.aop.toNat r.flit.typ.toNat old e.data.toNat e.swap.toNat
    (s.pokeRemote k o e (some x)).setElem k i { e with got := some (BitVec.ofNat 64 old), done := true }

/-- NOT_IMPLEMENTED (17 R423). -/
def execNotImplemented (port : Nat) (f : Flit) (s : State) : Res := onAnswer (.notImplemented port f) 0x13 port f s fun r s => s.reqFail r cUnsupported

/-- REFUSED (17 R423). -/
def execRefused (port : Nat) (f : Flit) (s : State) : Res :=
  onAnswer (.refused port f) 0x14 port f s fun r s => s.reqFail r (f.data.headD 0).toNat

/-! ### Plane map (11 R334; 17 R420) -/

/-- The first plane after n, cyclically, whose port is up. -/
def Fabric.planeAfter (f : Fabric) (n : Nat) : Option Nat := ((List.range 16).map fun i => (n + 1 + i) % 16).find? f.planeUp

/-- A slice goes over to a plane, under the other route version. -/
def Fabric.remap (f : Fabric) (h p : Nat) : Fabric :=
  let m := f.map.toNat
  { f with map := BitVec.ofNat 64 (m - bitsOf m (4 * h) 4 * 16 ^ h + p % 16 * 16 ^ h), rv := f.rv ^^^ BitVec.ofNat 16 (2 ^ h) }

/-- A change of the plane map starts (11 R334 step 1): ignored while BUSY, and for a plane that is not enabled. -/
def State.mapUpdate (s : State) (slice plane : Nat) : State :=
  if s.fab.busy || 16 ≤ slice || 16 ≤ plane || !s.fab.planeUp plane then s
  else { s with fab := { s.fab with busy := true, slice := BitVec.ofNat 4 slice, plane := BitVec.ofNat 4 plane } }

/-- PLANE_MAP_UPDATE (11 R334 step 1). -/
def execPlaneMapUpdate (slice plane : Nat) (s : State) : Res := hostCmd s fun s => s.mapUpdate slice plane

/-- PLANE_REMAP_COMMIT (11 R334 steps 2 to 4): once no request of the slice is unanswered. -/
def execPlaneRemapCommit (s : State) : Res :=
  let f := s.fab
  let h := f.slice.toNat
  if !f.busy || f.reqs.any (fun r => r.2.slice == h) then .next s
  else
    let p := if f.planeUp f.plane.toNat then f.plane.toNat else (f.planeAfter f.plane.toNat).getD f.plane.toNat
    .next ({ s with fab := { f.remap h p with busy := false } }.sendHeld)

/-- Requests are ended (17 R420 step 2): a read is held and sent again, any other takes PLANE_UNAVAILABLE; with no port
up, a read takes it as well (17 R421). -/
def State.endRequests (s : State) (rs : List KReq) : State :=
  let again := fun (r : KReq) => r.flit.op == 1 && s.fab.anyUp
  let s := s.together fun s => (rs.filter fun r => !again r).foldl (fun s r => s.reqFail r cPlane) s
  let rds := (rs.filter again).filter fun r => s.reqLives r
  { s with fab := { s.fab with held := rds ++ s.fab.held } }.sendHeld

/-- The scheduler messages of a plane are held again, to be sent on its slices' next plane (17 R420). -/
def Fabric.holdMsgs (f : Fabric) (port : Nat) : Fabric :=
  { f with held := f.held ++ (f.msgs.filter fun x => x.1 == port).map (·.2), msgs := f.msgs.filter fun x => x.1 != port }

/-- A port goes down (17 R416, R420): its slices are mapped to the next plane, its outstanding requests end, its scheduler
messages are sent again. -/
def State.portDown (s : State) (port : Nat) : State :=
  if !(s.kport port).up then s
  else
    let s := s.modKport port fun p => { p with up := false, crc := [], early := [] }
    let rs := (s.fab.reqs.filter fun e => e.1 / Config.planeTags == port).map (·.2)
    let s := { s with fab := { s.fab with reqs := kfilter (fun k _ => k / Config.planeTags != port) s.fab.reqs }.holdMsgs port }
    match s.fab.planeAfter port with
    | some p =>
      let hs := (List.range 16).filter fun h => s.fab.planeOf h == port
      ({ s with fab := hs.foldl (fun f h => f.remap h p) s.fab }).endRequests rs
    | none =>
      let held := s.fab.held.filter fun r => r.flit.op.toNat < 0x20
      ({ s with fab := { s.fab with held := s.fab.held.filter fun r => 0x20 ≤ r.flit.op.toNat } }).endRequests (rs ++ held)

/-- KAGON_PORT_DOWN (17 R416, R420). -/
def execKagonPortDown (port : Nat) (s : State) : Res := .next (s.portDown port)

/-- Lanes of a port in service (17 R416, R419). -/
def KPort.lanes (p : KPort) : Nat := ((List.range 8).filter fun i => !p.retired.getLsbD i && !p.recal.getLsbD i).length

/-- KAGON_PORT_UP (17 R421): from stage LINKS on (12 R355), a port that has four lanes retrains, and its link numbers flits from 0 (log 93); its slices come
back through the host alone. -/
def execKagonPortUp (port : Nat) (s : State) : Res :=
  if 16 ≤ port || s.mgmt.asserted || s.mgmt.stage.toNat < 6 || s.mgmt.untrained || (s.kport port).up || (s.kport port).lanes < 4 ||
      s.mgmt.fusePlanes.getLsbD port then .next s
  else .next ((s.modKport port fun p => { p with up := true, tx := 0, rx := 0 }).sendHeld)

/-- KAGON_REQUEST_TIMEOUT (17 R422): a request that has had no answer for 2^21 cycles of its issuing die is ended as R420 step
2 says; its TAG is withheld for 2^22 more. -/
def execKagonRequestTimeout (plane tag : Nat) (s : State) : Res :=
  let k := plane * Config.planeTags + tag
  match if tag < Config.planeTags then kget s.fab.reqs k else none with
  | none => .next s
  | some r =>
    let n := s.dieCycles r.die
    if n < r.since + Config.kagonCycles then .next s
    else .next ({ s with fab := { s.fab with reqs := kdel s.fab.reqs k, burnt := kset s.fab.burnt k (r.die, n + Config.tagCycles) } }.endRequests [r])

/-! ### Lanes and flits (17 R416 to R419; 11 R330) -/

/-- A port with fewer than four lanes in service goes down. -/
def State.laneCheck (s : State) (port : Nat) : State := if (s.kport port).lanes < 4 then s.portDown port else s

/-- A lane bit. -/
def laneSet (b : Byte) (i : Nat) (on : Bool) : Byte := if on then b ||| BitVec.ofNat 8 (2 ^ i) else b &&& ~~~(BitVec.ofNat 8 (2 ^ i))

/-- A lane leaves service to be retrained. -/
def KPort.recalibrate (p : KPort) (i : Nat) : KPort := { p with recal := laneSet p.recal i true, ages := setAt p.ages i 0 }

/-- The millisecond's update of one lane with c corrected bursts (17 R417). -/
def KPort.health (p : KPort) (i c : Nat) : KPort :=
  let h := (p.h.getD i 0).toNat
  let h' := min 255 (h - h / 8 + min c 64)
  let p := { p with ages := setAt p.ages i (min 1001 (p.ages.getD i 1001 + 1)) }
  if p.retired.getLsbD i || p.recal.getLsbD i || h' < 128 then { p with h := setAt p.h i (BitVec.ofNat 8 h') }
  else if p.ages.getD i 1001 ≤ 1000 then { p with h := setAt p.h i (BitVec.ofNat 8 h'), retired := laneSet p.retired i true }
  else { p.recalibrate i with h := setAt p.h i 0 }

/-- LANE_HEALTH_UPDATE (17 R417), of a port that is up or down. -/
def execLaneHealthUpdate (port : Nat) (bursts : List Nat) (s : State) : Res :=
  if 16 ≤ port then .next s
  else
    let s := s.modKport port fun p => (List.range 8).foldl (fun p i => p.health i (bursts.getD i 0)) { p with replay := p.cur, cur := 0 }
    .next (s.laneCheck port)

/-- Whether an operation on a lane cannot begin: one is in progress (17 R418, Table 17-2), or there is no such lane. -/
def State.lnkBars (s : State) (port lane : Nat) : Bool := s.fab.lnkBusy.isSome || 16 ≤ port || 8 ≤ lane

/-- A lane operation that takes time begins. -/
def State.lnkStart (s : State) (port lane op : Nat) : State := { s with fab := { s.fab with lnkBusy := some (port, lane, op) } }

/-- A lane is recalibrated: it leaves service (17 R418, R419). -/
def State.lnkRecalibrate (s : State) (port lane : Nat) : State :=
  if s.lnkBars port lane then s
  else ((s.lnkStart port lane 0).modKport port fun p => p.recalibrate lane).laneCheck port

/-- A lane is retired: ignored while BUSY, and when it would leave fewer than four lanes (17 R418). -/
def State.lnkRetire (s : State) (port lane : Nat) : State :=
  let p := { s.kport port with retired := laneSet (s.kport port).retired lane true }
  if s.lnkBars port lane || p.lanes < 4 then s else s.modKport port fun _ => p

/-- A lane is restored: ignored for one that is not retired. It stays retired, and no recalibration begins, until it has
retrained (17 R417 to R419). -/
def State.lnkRestore (s : State) (port lane : Nat) : State :=
  if s.lnkBars port lane || !(s.kport port).retired.getLsbD lane then s else s.lnkStart port lane 2

/-- LNKCTL_RECALIBRATE (17 R419). -/
def execLnkctlRecalibrate (port lane : Nat) (s : State) : Res := mgmtCmd s fun s => s.lnkRecalibrate port lane

/-- LNKCTL_RETIRE (17 R418). -/
def execLnkctlRetire (port lane : Nat) (s : State) : Res := mgmtCmd s fun s => s.lnkRetire port lane

/-- LNKCTL_RESTORE (17 R418). -/
def execLnkctlRestore (port lane : Nat) (s : State) : Res := mgmtCmd s fun s => s.lnkRestore port lane

/-- LANE_RETRAIN_DONE (17 R419): the lane returns, or is retired. -/
def execLaneRetrainDone (port lane : Nat) (ok : Bool) (s : State) : Res :=
  let p := s.kport port
  let restored := s.fab.lnkBusy == some (port, lane, 2)
  if 8 ≤ lane || !(p.recal.getLsbD lane || restored) then .next s
  else
    let p := { p with recal := laneSet p.recal lane false,
                      retired := if !ok then laneSet p.retired lane true else if restored then laneSet p.retired lane false else p.retired }
    let busy := match s.fab.lnkBusy with
      | some (a, b, c) => if a == port && b == lane then none else some (a, b, c)
      | none => none
    let s := s.modKport port fun _ => p
    .next ({ s with fab := { s.fab with lnkBusy := busy } }.laneCheck port)

/-- FLIT_CRC_FAILURE (11 R330; 17 R416): a replay of that flit is asked for; the sixteenth failure in succession of one flit takes
the port down. -/
def execFlitCrcFailure (rcv : Link) (s : State) : Res :=
  let p := s.kport rcv.port
  if !p.up then .next s
  else
    let n := kgetD p.crc rcv.seq.toNat 0 + 1
    let s := (s.modKport rcv.port fun p =>
      { p with crc := kset p.crc rcv.seq.toNat n, cur := BitVec.ofNat 8 (satAdd 255 p.cur.toNat) }).emit (.replayRequest rcv.port rcv.seq)
    .next (if 16 ≤ n then s.portDown rcv.port else s)

/-- FLIT_DISCARD (11 R332; 17 Table 17-1): the flit of an unknown OP, or for another device, takes its place in the sequence. -/
def execFlitDiscard (rcv : Link) (s : State) : Res :=
  onLink (.flitDiscard rcv) (some rcv) s fun s => .next (s.flitDrop rcv.port)

end Sys2Proof.Machine
end

