-- ==== Sys2Proof/Machine/Firmware.lean ====
section
/-! DEFINITION. Firmware messages and page migration (11 R337, R338): rings at offsets 0xC000 and 0xC800 of private
SRAM, delivery, and the MIGCTL operations as events of their own. -/

namespace Sys2Proof.Machine

open Host

/-- Inbound and outbound firmware ring. -/
def fwIn : Nat := 0xC000
def fwOut : Nat := 0xC800

/-- The first 31 bytes of an inbound slot (11 Table 11-14). -/
def fwBytes (m : FwMsg) : List Byte :=
  [m.code] ++ (m.body.take 23 ++ List.replicate (23 - m.body.length) 0) ++ leBytes 2 m.peer.toNat ++ [m.core.setWidth 8, 0, 0, 0, 0]

/-- Messages that wait enter the ring while its next slot is free. -/
def Mend.fwDrain (m : Mend) : List FwMsg → Mend
  | [] => { m with fwWait := [] }
  | x :: r =>
    if m.slotValid fwIn m.finPos then { m with fwWait := x :: r }
    else ({ m.fillSlot fwIn m.finPos (fwBytes x) with finPos := (m.finPos + 1) % 64 }).fwDrain r

/-- A message is delivered when its code is one of a range; any other code is discarded at the target. -/
def fwDeliver (e : Instr) (core : Nat) (m : FwMsg) (ok : Nat → Bool) (s : State) : Res :=
  onLink e m.link s fun s => if ok m.code.toNat then .next (s.modMend core fun c => c.fwDrain (c.fwWait ++ [m])) else .next s

/-- FIRMWARE_MESSAGE (11 R337): codes 0x80 to 0xFF. -/
def execFirmwareMessage (core : Nat) (m : FwMsg) (s : State) : Res := fwDeliver (.firmwareMessage core m) core m (fun c => decide (0x80 ≤ c)) s

/-- MIGREQ (11 R338 step 2). -/
def execMigreq (core : Nat) (m : FwMsg) (s : State) : Res := fwDeliver (.migreq core m) core m (· == 1) s

/-- MIGDONE (11 R338 step 6). -/
def execMigdone (core : Nat) (m : FwMsg) (s : State) : Res := fwDeliver (.migdone core m) core m (· == 2) s

/-- MIGNAK (11 R338). -/
def execMignak (core : Nat) (m : FwMsg) (s : State) : Res := fwDeliver (.mignak core m) core m (· == 3) s

/-- The event by which a message of this device to itself arrives. -/
def fwEvent (core : Nat) (m : FwMsg) : Option Instr :=
  match m.code.toNat with
  | 1 => some (.migreq core m)
  | 2 => some (.migdone core m)
  | 3 => some (.mignak core m)
  | c => if 0x80 ≤ c then some (.firmwareMessage core m) else none

/-- The slice of a firmware message (11 R333). -/
def fwSlice (peer core : Nat) : Nat := peer % 16 ^^^ core

/-- Whether a message to a peer can leave now. -/
def State.fwCanSend (s : State) (peer core : Nat) : Bool :=
  let h := fwSlice peer core
  peer == s.me || (s.fab.planeUp (s.fab.planeOf h) && !(s.fab.busy && s.fab.slice.toNat == h) && s.fab.held.all fun r => r.slice != h)

/-- The outbound slot of a core is sent when it is VALID, and VALID is cleared (11 R337). -/
def State.fwSendSlot (s : State) (core slot : Nat) : State :=
  match kget s.mends core with
  | none => s
  | some c =>
    let bs := c.slotBytes fwOut slot
    let peer := leNat ((bs.drop 24).take 2) % 2 ^ 14
    let tgt := (bs.getD 26 0).toNat % 4
    if !c.slotValid fwOut slot || !s.fwCanSend peer tgt then s
    else
      let s := s.setMend core (c.clearSlot fwOut slot)
      if peer == s.me then
        match fwEvent tgt { code := bs.headD 0, body := (bs.drop 1).take 23, peer := s.mgmt.peernum, core := BitVec.ofNat 2 core } with
        | some e => s.selfSend e
        | none => s
      else s.kSend { slice := fwSlice peer tgt, flit := { s.flitTo 0x21 peer 0 with data := bs }, op := none, elems := [], back := none }

/-- The slots of a core's outbound ring that are to be sent, in the order in which VALID was written (11 R337). -/
def Mend.fwOrder (m : Mend) : List Nat :=
  let full := (List.range 64).filter fun i => m.slotValid fwOut i
  let old := m.fwQ.filter full.contains
  old ++ full.filter fun i => !old.contains i

/-- Every outbound slot of the mending cores that can be sent is sent, in order. -/
def State.fwSendAll (s : State) : State :=
  s.mends.foldl (fun s m =>
    let l := m.2.fwOrder
    l.foldl (fun s i => s.fwSendSlot m.1 i) (if l == m.2.fwQ then s else s.modMend m.1 fun x => { x with fwQ := l })) s

/-! ### MIGCTL (11 R338, Tables 11-15 to 11-17) -/

/-- MIGCTL_HOLD. -/
def execMigctlHold (core page : Nat) (s : State) : Res := .next (s.migHold core (page % 2 ^ 29))

/-- MIGCTL_FORWARD. -/
def execMigctlForward (core : Nat) (s : State) : Res := .next (s.migForward core)

/-- MIGCTL_CLEAR. -/
def execMigctlClear (_core page : Nat) (s : State) : Res := .next (s.migClear (page % 2 ^ 29))

/-- MIGCTL_END_HOLD. -/
def execMigctlEndHold (core : Nat) (s : State) : Res := .next (s.migEnd core)

/-- Whether every request to the page that arrived before a hold has been applied. -/
def State.migDrained (s : State) (h : MigHold) : Bool :=
  h.early.all (fun k => match kget s.ops k with
    | some o => o.elems.all fun e => !e.atPage h.page
    | none => true) &&
    s.fab.inHeld.all fun x => x.2.1.seam || x.2.1.carve || x.2.1.addr.toNat / 65536 != h.page

/-- HOLD_DRAINED (11 R338 step 3). -/
def execHoldDrained (core : Nat) (s : State) : Res :=
  match (kget s.mends core).bind (·.mig) with
  | none => .next s
  | some h =>
    if h.held || !s.migDrained h then .next s
    else .next (s.modMend core fun m => { m with mig := some { h with held := true } })

end Sys2Proof.Machine
end

