-- ==== Sys2Proof/Machine/Partitions.lean ====
section
/-! DEFINITION. Partitions, keys and identity (11 R346, R347, R349, R350; 17 R428; 12 R361): the CMDs of a partition record,
key installation, measurements, certificates and the secure session. -/

namespace Sys2Proof.Machine

open Host

/-! ### Partition commands (11 R347; 17 R428) -/

/-- The 512 bits of a partition record (11 Table 11-12), CMD reading as zero. -/
def Part.bits (r : Part) : Nat :=
  packFields [(0, 5), (r.state.toNat, 2), (r.key.toNat, 1), (r.err.toNat, 8), (0, 112), (r.svroot.toNat, 64), (0, 3), (r.svcode.toNat, 50),
    (r.hbm.toNat, 11), (r.ways.toNat, 16), (r.pshare.toNat, 8), (r.kshare.toNat, 8), (0, 13), (r.hapbase.toNat, 19), (r.clusters.toNat, 64),
    (r.engines.toNat, 128)]

/-- Partitions whose STATE is not 0. -/
def State.liveParts (s : State) : List Nat := (List.range 8).filter fun p => (s.part p).state != 0

/-- Why a partition may not start: ERR 1 to 3. -/
def State.startErr (s : State) (p : Nat) : Option Byte :=
  let r := s.part p
  let l := s.liveParts
  if l.any fun q => let x := s.part q; x.clusters &&& r.clusters != 0 || x.engines &&& r.engines != 0 || x.ways &&& r.ways != 0 then some 1
  else if 1536 < l.foldl (fun n q => n + (s.part q).hbm.toNat) r.hbm.toNat then some 2
  else if !r.key then some 3
  else none

/-- The supervisor code of a partition, as measured: each byte through the tables of its context, in the page cache or in the pool (11
R350; log 10). -/
def State.svBytes (s : State) (p : Nat) : List Byte :=
  (List.range (Config.supervisorLength p)).filterMap fun i =>
    match s.check (supCtx p) 3 false ((s.part p).svcode.toNat * 128 + i) with
    | .ok (.loc a _) _ _ => some (s.homeByte a)
    | .ok (.carve a) _ _ => some (mget s.mem.carve a)
    | _ => none

/-- CMD 1: the partition starts, or ERR says why not (11 R347). -/
def State.partStart (s : State) (p : Nat) : State :=
  match s.startErr p with
  | some e => s.modPart p fun r => { r with err := e }
  | none =>
    let s := s.modPart p fun r => { r with err := 0, state := 1, stopped := false }
    let d := Config.sm3 (leBytes 64 (s.part p).bits ++ s.svBytes p)
    { s with mgmt := { s.mgmt with meas := kset s.mgmt.meas (0x10 + p) d } }.startSups p

/-- CMD 2 (17 R428). -/
def State.partReset (s : State) (p : Nat) : State :=
  if (s.part p).state != 1 then s.modPart p fun r => { r with err := 5 }
  else (s.modPart p fun r => { r with err := 0 }).resetPart p

/-- The supervisor warps of a partition leave. -/
def State.stopSups (s : State) (p : Nat) : State :=
  let cores := s.partCores p
  (({ s with warps := kfilter (fun k _ => !(isSup k && cores.contains (wkCore k))) s.warps,
             groups := kfilter (fun k _ => gkGrid k != supCtx p) s.groups, ops := killOps s.ops (supCtx p) }).answerAll (supCtx p)).disarm (supCtx p)

/-- CMD 3: STATE returns to 0 when no queue of the partition is enabled and no grid of it is resident. -/
def State.partStop (s : State) (p : Nat) : State :=
  if (s.sched.queues.any fun q => q.2.en && q.2.part.toNat == p) || s.grids.any (fun g => g.2.part == p) then
    s.modPart p fun r => { r with err := 4 }
  else if (s.part p).state == 0 then s.modPart p fun r => { r with err := 0 }
  else (s.stopSups p).modPart p fun r => { r with err := 0, state := 0, stopped := false }

/-- A write of CMD by the host. -/
def partCmd (p : Nat) (s : State) (k : State → State) : Res := hostCmd s fun s => if p < 8 then k s else s

/-- PARTITION_START. -/
def execPartitionStart (p : Nat) (s : State) : Res := partCmd p s fun s => s.partStart p

/-- PARTITION_RESET. -/
def execPartitionReset (p : Nat) (s : State) : Res := partCmd p s fun s => s.partReset p

/-- PARTITION_STOP. -/
def execPartitionStop (p : Nat) (s : State) : Res := partCmd p s fun s => s.partStop p

/-! ### Keys and identity (11 R346, R349, R350) -/

/-- KEY_INSTALL (11 R346): partition keys 0 to 7, the domain pressed key 8. -/
def execKeyInstall (p : Nat) (key : BitVec 256) (s : State) : Res :=
  mgmtCmd s fun s =>
    if 8 < p then s.emit .mgmtError
    else
      let s := { s with mgmt := { s.mgmt with keys := kset s.mgmt.keys p key } }
      if p < 8 then s.modPart p fun r => { r with key := true } else s

/-- Whether the device answers SPDM: from stage FUSE (12 Table 12-3). -/
def State.spdm (s : State) : Bool := !s.mgmt.asserted && decide (2 ≤ s.mgmt.stage.toNat)

/-- GET_MEASUREMENTS (11 R349, R350): the digest at an index, with a signature of the identity key over it and the nonce of a
request that asks for one, or an error. -/
def execGetMeasurements (req : MeasReq) (s : State) : Res :=
  if !s.spdm then .next s
  else match kget s.mgmt.meas req.index with
    | some d =>
      let bs := leBytes 32 d.toNat
      .next (s.emit (.mgmt (bs ++ match req.nonce with
        | some n => Config.identitySign (bs ++ n)
        | none => [])))
    | none => .next (s.emit .mgmtError)

/-- The certificate chain of a slot (11 R349): slot 0 holds the device's own, slots 1 to 7 what the owner provisioned. -/
def State.certChain (s : State) (slot : Nat) : List Byte := if slot == 0 then Config.deviceChain else kgetD s.mgmt.certs slot []

/-- SET_CERTIFICATE (11 R349): slots 1 to 7. -/
def execSetCertificate (slot : Nat) (chain : List Byte) (s : State) : Res :=
  if !s.spdm then .next s
  else if 1 ≤ slot && slot ≤ 7 then .next { s with mgmt := { s.mgmt with certs := kset s.mgmt.certs slot chain } }
  else .next (s.emit .mgmtError)

/-- KEY_EXCHANGE (11 R349; 12 R361): the secure session is established, or not. -/
def execKeyExchange (ok : Bool) (s : State) : Res :=
  if !s.spdm then .next s
  else if ok then .next { s with mgmt := { s.mgmt with session := true } }
  else .next (s.emit .mgmtError)

end Sys2Proof.Machine
end

