-- ==== Sys2Proof/Machine/Checkpoint.lean ====
section
/-! DEFINITION. Checkpoints to flash and the resume from one (10 R318, R319; 12 R358, R359; 15 R393; 16 R414). -/

namespace Sys2Proof.Machine

open Host

/-! ### The checkpoint control word (10 R318, R319) -/

/-- Whether the carrier's flash serves checkpoints (12 R354; 00 R2). -/
def State.flashOk (s : State) : Bool := match s.mgmt.card with
  | some f => f.holdup && decide (1024 ≤ f.ckptGiB)
  | none => false

/-- Runs a CMD: STATUS 3 on a part without suitable flash, ignored while a checkpoint runs. -/
def ckptCmd (s : State) (k : State → State) : State :=
  if !s.flashOk then { s with sched := { s.sched with ckpt := { s.sched.ckpt with status := 3 } } }
  else if s.sched.ckpt.status == 1 then s
  else k s

/-- Whether a group belongs to a partition of a mask. -/
def State.inParts (s : State) (parts : Byte) (gk : Nat) : Bool := match kget s.grids (gkGrid gk) with
  | some g => parts.getLsbD g.part
  | none => false

/-- A group that already stops to be drained is decided anew for a checkpoint (10 R319 step 2). -/
def State.redecide (s : State) (gk : Nat) : State :=
  s.modGroup gk fun g => if g.phase == .stopping .drain then { g with phase := .stopping (s.decideCkpt gk) } else g

/-- A checkpoint starts (10 R319 steps 1, 2): the partitions stop, their resident groups are pre-empted. -/
def State.ckptStart (s : State) (parts : Byte) (cont : Bool) : State :=
  let stop := kmap (fun p (r : Part) => if parts.getLsbD p then { r with stopped := true } else r) s.sched.parts
  let s := { s with sched := { s.sched with parts := stop, ckpt := { s.sched.ckpt with status := 1, parts := parts, run := parts, cont := cont } } }
  (s.groups.filter fun e => s.inParts parts e.1).foldl (fun s e =>
    if e.2.phase == .run || e.2.phase == .held then s.preemptGroup e.1 (s.decideCkpt e.1) else s.redecide e.1) s

/-- Stopped partitions go on. -/
def State.ckptGo (s : State) (parts : Byte) : State :=
  { s with sched := { s.sched with parts := kmap (fun p (r : Part) => if parts.getLsbD p then { r with stopped := false } else r) s.sched.parts } }

/-- CKPT_AND_STOP: CMD 1. -/
def execCkptAndStop (parts : Byte) (s : State) : Res := hostCmd s fun s => ckptCmd s fun s => s.ckptStart parts false

/-- CKPT_AND_CONTINUE: CMD 2. -/
def execCkptAndContinue (parts : Byte) (s : State) : Res := hostCmd s fun s => ckptCmd s fun s => s.ckptStart parts true

/-- CMD 3: the stopped partitions resume; STATUS keeps its value. -/
def State.ckptResume (s : State) (parts : Byte) : State :=
  ({ s with sched := { s.sched with ckpt := { s.sched.ckpt with parts := parts } } }).ckptGo (BitVec.allOnes 8)

/-- CKPT_RESUME: CMD 3. -/
def execCkptResume (parts : Byte) (s : State) : Res := hostCmd s fun s => ckptCmd s fun s => s.ckptResume parts

/-! ### The image (10 R319 steps 3 to 5; 15 R393) -/

/-- Whether no group of the partitions holds a core, no frame is being written, and no packet of their queues is open
but grids. -/
def State.ckptQuiet (s : State) (parts : Byte) : Bool :=
  s.groups.all (fun e => !(e.2.phase.resident && s.inParts parts e.1)) &&
    s.sched.packets.all fun p => !parts.getLsbD (s.queue p.q).part.toNat

/-- Dirty sectors of live leases of the partitions; a lost one has no write-back (16 R408). -/
def State.partsDirty (s : State) (parts : Byte) : List Nat :=
  (s.mem.secs.filter fun e => let l := s.mem.leaseAt (e.1 * 4096)
    e.2.valid && e.2.dirty && !e.2.lost && l.live && parts.getLsbD l.part).map (·.1)

/-- The dirty sectors of the partitions are written back over the pool ports (10 R319 step 3; 11 R339). -/
def State.partsBack (s : State) (parts : Byte) : State := (s.partsDirty parts).foldl (fun s k => s.sendBack k) s

/-- The image of the partitions (10 R319 step 4). -/
def State.image (s : State) (parts : Byte) : Image :=
  let secs := (s.mem.secs.filter fun e => e.2.valid && (s.mem.leaseAt (e.1 * 4096)).reserve).map (·.1)
  let grids := kfilter (fun _ (g : Grid) => parts.getLsbD g.part) s.grids
  let queues := kfilter (fun _ (q : Queue) => parts.getLsbD q.part.toNat) s.sched.queues
  { parts := parts, grids := grids, groups := kfilter (fun k _ => s.inParts parts k) s.groups,
    seams := kfilter (fun k _ => grids.any fun g => g.2.seam.map (·.id) == some k) s.seams, queues := queues,
    win := s.sched.win.filter fun e => e.1 < 0x4000000 && khas queues (e.1 / 0x40000), counts := s.sched.counts,
    precs := kfilter (fun p _ => parts.getLsbD p) s.sched.parts,
    keys := kfilter (fun p _ => p == 8 || parts.getLsbD p) s.mgmt.keys, lwins := s.land.wins,
    leases := kfilter (fun _ (l : Lease) => l.reserve || parts.getLsbD l.part) s.mem.leases, secs := secs,
    bytes := s.mem.bytes.filter fun e => secs.contains (e.1 / 4096) }

/-- The image is complete in flash (10 R319 step 5). -/
def State.ckptComplete (s : State) : State :=
  let c := s.sched.ckpt
  let s := { s with sched := { s.sched with ckpt := { c with status := 2, run := 0, image := some (s.image c.run) } } }
  if c.cont then s.ckptGo c.run else s

/-- CHECKPOINT_DONE (10 R319; 15 R393): the image is complete once the dirty sectors have been written back, or it does not fit, or a
flash write fails. -/
def execCheckpointDone (ok : Bool) (s : State) : Res :=
  let c := s.sched.ckpt
  if c.status != 1 then .next s
  else if !ok then .next s.ckptFail
  else if !s.ckptQuiet c.run then .next s
  else if (s.partsDirty c.run).isEmpty then .next s.ckptComplete
  else .next (s.partsBack c.run)

/-! ### Resume (12 R358, R359; 16 R414) -/

/-- Records of an image that its leases restore: Active and Renewing ones (12 R358). The reserve lease, which is acquired first,
may come elsewhere: its pages come back from the image (12 R359). -/
def Image.wanted (i : Image) : KV Lease := kfilter (fun _ (l : Lease) => l.live && !l.reserve) i.leases

/-- Whether a lease of the device is the one that an image records. -/
def Lease.same (l r : Lease) : Bool := l.live && l.node == r.node && l.extent == r.extent

/-- Whether every recorded lease has been re-acquired. -/
def State.reacquired (s : State) (i : Image) : Bool := i.wanted.all fun e => (s.lease e.1).same e.2

/-- The lease records of one partition: those re-acquired stay, any other is Free; a live one that did not come back
is recorded as ended Lost (16 Table 16-6). -/
def State.resumeLeases (s : State) (i : Image) (p : Nat) : State × Bool :=
  let ls := i.leases.filter fun e => e.2.part == p && !e.2.reserve
  ls.foldl (fun a e =>
    if (a.1.lease e.1).same e.2 then a
    else
      let r := e.2.tgt 0
      let r := if e.2.live then { r with last := 5 } else r
      ({ a.1 with mem := { a.1.mem with leases := kset a.1.mem.leases e.1 r } }, a.2 || e.2.live)) (s, false)

/-- Entries of a map that replace or join those of another. -/
def kmerge {α : Type} (l new : KV α) : KV α := new.foldl (fun l e => kset l e.1 e.2) l

/-- The grids, groups, seams and queues of one partition come back (12 R359 steps 2, 4). -/
def State.resumeWork (s : State) (i : Image) (p : Nat) : State :=
  let grids := kfilter (fun _ (g : Grid) => g.part == p) i.grids
  let groups := kfilter (fun k _ => khas grids (gkGrid k)) i.groups
  let queues := kfilter (fun _ (q : Queue) => q.part.toNat == p) i.queues
  let saved := (groups.filter fun e => e.2.phase.isSaved).map (·.1)
  let top := grids.foldl (fun n e => max n (e.1 + 1)) s.sched.nextGrid
  { s with
    grids := kmerge s.grids grids, groups := kmerge s.groups groups,
    seams := kmerge s.seams (kfilter (fun k _ => grids.any fun g => g.2.seam.map (·.id) == some k) i.seams),
    sched := { s.sched with queues := kmerge s.sched.queues queues, nextGrid := top,
                            win := moverlay s.sched.win (i.win.filter fun e => khas queues (e.1 / 0x40000)) },
    mgmt := { s.mgmt with fromImage := s.mgmt.fromImage ++ saved } }

/-- RESUMESTAT of a partition. -/
def State.setResume (s : State) (p code : Nat) : State :=
  { s with mgmt := { s.mgmt with resumestat := s.mgmt.resumestat ||| BitVec.ofNat 32 (code * 16 ^ p) } }

/-- A partition cannot be restored. -/
def State.resumeFail (s : State) (p code : Nat) : State :=
  let t := s.setResume p code
  { t with mgmt := { t.mgmt with fail := 7 } }

/-- The pinned pages of the reserve lease are written back (12 R359 step 1): those of extents of the partition, and of one that
the image does not select. -/
def State.resumePages (s : State) (i : Image) (p : Nat) : State :=
  let mine := fun (k : Nat) => let q := (kgetD i.leases (k / 2 ^ 18) Lease.reset).part
    q == p || !i.parts.getLsbD q
  let ks := i.secs.filter mine
  let secs := ks.foldl (fun (l : KV Sector) k => kset l k { valid := true, dirty := true, lost := false }) s.mem.secs
  let bytes := ks.foldl (fun m k => mclear m (k * 4096) 4096) s.mem.bytes
  { s with mem := { s.mem with secs := secs, bytes := moverlay bytes (i.bytes.filter fun e => mine (e.1 / 4096)) } }

/-- The partition whose context armed a landing window of an image. -/
def Image.winPart (i : Image) (w : LandWin) : Option Nat :=
  w.ctx.bind fun c => if c < 2 ^ 32 then (kget i.grids c).map (·.part) else some (c - 2 ^ 32)

/-- Whether a partition has been restored. -/
def State.restored (s : State) (p : Nat) : Bool :=
  let c := bitsOf s.mgmt.resumestat.toNat (4 * p) 4
  decide (1 ≤ c) && decide (c ≤ 3)

/-- Whether some partition has been restored. -/
def State.anyRestored (s : State) : Bool := (List.range 8).any s.restored

/-- The landing windows that a context of a restored partition armed come back, and with the first partition those that none did. One
whose context is no grid of the image is armed no more. -/
def State.resumeWins (s : State) (i : Image) (p : Nat) (first : Bool) : State :=
  let keep := fun (w : LandWin) => match i.winPart w with
    | some q => q == p
    | none => first
  let alive := fun (w : LandWin) => match w.ctx with
    | some g => khas s.grids g
    | none => false
  let wins := (i.lwins.filter fun e => keep e.2).foldl (fun (l : KV LandWin) e =>
    kset l e.1 (if alive e.2 then e.2 else { e.2 with ctx := none })) s.land.wins
  { s with land := { s.land with wins := wins } }

/-- One partition of the image is restored (12 R359; 16 R414), up to the placing of its saved groups. The count words, which the partitions
share, come back with the first. The choice of the step says whether its part of the image fails its digest, or its keys do not
unwrap (log 1). -/
def State.resumePart (s : State) (i : Image) (p : Nat) : State :=
  let fate := bitsOf s.choice (2 * p) 2
  let first := !s.anyRestored
  if fate == 1 then s.resumeFail p 4
  else
    let s := s.resumePages i p
    let (s, lost) := s.resumeLeases i p
    if fate == 2 then s.resumeFail p 5
    else
      let keys := kfilter (fun k _ => k == p || k == 8) i.keys
      let s := { s with mgmt := { s.mgmt with keys := kmerge s.mgmt.keys keys },
                        sched := { s.sched with counts := if first then i.counts else s.sched.counts } }
      let s := s.modPart p fun _ => { (kgetD i.precs p Part.reset) with state := 0, stopped := false }
      let s := s.partStart p
      if (s.part p).state.toNat != 1 then s.resumeFail p 6
      else ((s.resumeWork i p).setResume p (if lost then 2 else 1)).resumeWins i p first

/-- Whether a saved group of a partition that a resume brought is being restored, or can be placed now (12 R359 step 4; 10 R315, R316).
A seam's members come back by their rendezvous. -/
def State.resumesNow (s : State) (p : Nat) : Bool :=
  let s := s.pruneRooms
  s.schedules p && (s.waitingQueues p).any fun q => match s.nextGroup p q with
    | some (id, g, w) => w.frame.isSome && g.seam.isNone && s.resuming.contains (gkey id w.ix) &&
        ((s.placeFor p q).isSome || s.frameHeld (gkey id w.ix))
    | none => false

end Sys2Proof.Machine
end

