-- ==== Sys2Proof/Machine/Boot.lean ====
section
/-! DEFINITION. Reset, boot and power (12 R354 to R359, R361; 17 R434): the stages of the boot ROM, images, the start of the
mending firmware, stage RESUME, the entry to RUN. -/

namespace Sys2Proof.Machine

open Host

/-! ### Images (12 R356) -/

/-- Whether the ROM accepts one object of an image: its signature and its digest are good, and its version is not below the
rollback counter. -/
def Mgmt.verifies (m : Mgmt) (x : FwPart) : Bool := x.sigOk && x.digest == Config.sm3 x.code && decide (m.rollback ≤ x.version)

/-- Whether the ROM accepts an image: the mending firmware and the link firmware (12 R355, R356). -/
def Mgmt.accepts (m : Mgmt) (i : FwImg) : Bool := m.verifies i.mend && m.verifies i.link

/-- The acceptable one of an optional image. -/
def Mgmt.accepted (m : Mgmt) (i : Option FwImg) : Option FwImg := i.bind fun x => if m.accepts x then some x else none

/-- The image of the slots with the higher version among those that verify, and whether it is slot B's. -/
def Mgmt.pickSlot (m : Mgmt) : Option (FwImg × Bool) :=
  match m.accepted m.slotA, m.accepted m.slotB with
  | some a, some b => if a.mend.version < b.mend.version then some (b, true) else some (a, false)
  | some a, none => some (a, false)
  | none, some b => some (b, true)
  | none, none => none

/-- BOOTSTAT.STAGE and FAIL. -/
def State.stage (s : State) (n : Nat) : State := { s with mgmt := { s.mgmt with stage := BitVec.ofNat 8 n } }
def State.bootFail (s : State) (code : Nat) : State := { s with mgmt := { s.mgmt with fail := BitVec.ofNat 8 code } }
def State.bootWait (s : State) (w : Bool) : State := { s with mgmt := { s.mgmt with waiting := w } }

/-- A measurement is taken (11 R350). -/
def State.measure (s : State) (index : Nat) (bs : List Byte) : State :=
  { s with mgmt := { s.mgmt with meas := kset s.mgmt.meas index (Config.sm3 bs) } }

/-! ### Stages ROM to CFG (12 R355) -/

/-- The record that 64 bytes hold: one whose MAGIC or DIGEST fails counts as absent (12 R354 Table 12-7). -/
def cardOf (bs : List Byte) : Option Card :=
  if bs.length == 64 && leNat (bs.take 4) == 0x4B435231 && bs.drop 32 == leBytes 32 (Config.sm3 (bs.take 32)).toNat then
    let flags := (bs.getD 6 0).toNat
    some { format := bs.getD 4 0, ctype := bs.getD 5 0, holdup := bitAt flags 0, slots := bitAt flags 1, pmod := bitAt flags 2,
           ckptGiB := leNat ((bs.drop 8).take 4), slotMiB := leNat ((bs.drop 12).take 4) }
  else none

/-- Whether the module carrier was detected (01 R20; 12 R354). -/
def Mgmt.module (m : Mgmt) : Bool := match m.card with
  | some f => f.ctype == 1
  | none => false

/-- Whether the carrier has firmware slots. -/
def Mgmt.hasSlots (m : Mgmt) : Bool := match m.card with
  | some f => f.slots
  | none => false

/-- Stage FUSE: the fuses and the carrier record are read; slots that the flash does not hold already are those found (log
25). -/
def State.bootFuse (s : State) (f : BootFacts) : State :=
  let m := { s.mgmt with carrier := some f, card := cardOf f.record, fuseClusters := f.noClusters, fuseStacks := f.noStacks,
                         fusePlanes := f.noPlanes, rollback := f.rollback }
  let m := if m.hasSlots then { m with slotA := m.slotA.orElse fun _ => f.slotA, slotB := m.slotB.orElse fun _ => f.slotB } else m
  let fuse := leBytes 8 m.fuseClusters.toNat ++ leBytes 2 m.fuseStacks.toNat ++ leBytes 2 m.fusePlanes.toNat
  ({ s with mgmt := m }.stage 2).measure 2 (fuse ++ leBytes 4 (Config.devid m.module).toNat ++ leBytes 2 m.peernum.toNat)

/-- Stage MEM: stacks that fail training are fenced; boot stops when every stack fails (17 Table 17-8). The caches,
scratchpads and tile stores are clear after a reset. -/
def State.bootMem (s : State) : State :=
  let f := match s.mgmt.carrier with
    | some f => f.trained
    | none => 0
  let s := s.stage 4
  let bad := s.mgmt.stacks.filter fun k => !f.getLsbD k
  let mask := bad.foldl (fun (m : BitVec 16) k => m ||| BitVec.ofNat 16 (2 ^ k)) s.mgmt.fencedStacks
  let s := if bad.isEmpty then s else { s with mgmt := { s.mgmt with fencedStacks := mask } }.bootFail 2
  if s.mgmt.stacks.isEmpty then (s.bootFail 3).bootWait true else (s.bootWait false).stage 5

/-- An image is loaded (12 R355 stage FWLOAD), and boot goes on. -/
def State.bootLoad (s : State) (i : FwImg) (slotB : Bool) : State :=
  let s := { s with mgmt := { s.mgmt with running := some i, bootedB := slotB } }
  ((s.measure 3 i.mend.code).measure 4 i.link.code).bootMem

/-- Stage FWLOAD: a slot's image, or one that arrived; else the ROM waits (12 R356; 17 Table 17-8). -/
def State.bootFw (s : State) : State :=
  let s := s.stage 3
  let m := s.mgmt
  match if m.hasSlots then m.pickSlot else none with
  | some (i, b) => s.bootLoad i b
  | none => match m.accepted (m.carrier.bind (·.received)) with
    | some i => s.bootLoad i false
    | none => (s.bootFail 1).bootWait true

/-- The ROM runs stages ROM, FUSE, FWLOAD and MEM, to CFG or to a wait (12 R355). -/
def State.romStart (s : State) (f : BootFacts) : State :=
  (((({ s with mgmt := { s.mgmt with asserted := false } }).stage 1).measure 1 Config.bootRom).bootFuse f).bootFw

/-- PACKAGE_RESET_RELEASE (12 R355). -/
def execPackageResetRelease (f : BootFacts) (s : State) : Res := .next (if s.mgmt.asserted then s.romStart f else s)

/-! ### LINKS, LEASE, RESUME, RUN (12 R355, R358, R359) -/

/-- Mending cores start the firmware (12 R355 stage LEASE). -/
def State.startMends (s : State) : State :=
  match s.mgmt.running with
  | none => s
  | some i =>
    let m : Mend := { Mend.reset with code := mwrite [] 0 i.mend.code, pc := i.entry.toNat, halted := false }
    { s with mends := [(0, m), (1, m), (2, m), (3, m)] }

/-- Stage LEASE begins. -/
def State.bootLease (s : State) : State := ((s.bootWait false).stage 7).startMends

/-- Pool ports that train with IDE come up; without one, the stage waits (17 Table 17-8). -/
def State.bootPool (s : State) (pool : BitVec 8) : State :=
  let up := (List.range 8).foldl (fun (l : KV PoolPort) i => kset l i { up := pool.getLsbD i }) s.mem.pports
  let s := { s with mem := { s.mem with pports := up } }
  if s.mem.poolUp then s.bootLease else (s.bootFail 4).bootWait true

/-- Kagon ports train; the slices of ports that are not up go to others (17 R420, Table 17-8). -/
def State.bootKagon (s : State) (kagon : BitVec 16) : State :=
  let on := (List.range 16).filter fun n => !s.mgmt.fusePlanes.getLsbD n
  let s := on.foldl (fun s n => s.modKport n fun p => { p with up := kagon.getLsbD n }) s
  let s := if on.all fun n => kagon.getLsbD n then s else s.bootFail 5
  let f := (List.range 16).foldl (fun (f : Fabric) h =>
    if f.planeUp (f.planeOf h) then f else match f.planeAfter (f.planeOf h) with
      | some p => f.remap h p
      | none => f) s.fab
  { s with fab := f }

/-- CFGDONE.GO (12 R357): stage CFG ends; RESUME is kept. -/
def execCfgdoneGo (resume : Bool) (f : LinkFacts) (s : State) : Res :=
  mgmtCmd s fun s =>
    if s.mgmt.stage != 5 then s
    else (({ s with mgmt := { s.mgmt with resume := resume } }.stage 6).bootKagon f.kagon).bootPool f.pool

/-- The image that stage RESUME restores: that of a carrier whose flash serves checkpoints (12 R354). -/
def State.toResume (s : State) : Option Image := if s.mgmt.resume && s.flashOk then s.sched.ckpt.image else none

/-- Whether the reserve lease is held: its first 2,048 extents, all Active and marked RESERVE (01 R17; 03 R61). -/
def State.reserveHeld (s : State) : Bool :=
  (List.range Config.reserveLeases).all fun i => let l := s.lease i; l.reserve && l.live

/-- Stage RUN begins: the host port trains (12 R355). -/
def State.bootRun (s : State) : State :=
  let s := (s.bootWait false).stage 9
  { s with host := { s.host with up := true } }

/-- Stage LEASE ends: stage RESUME begins when there is an image to resume, else stage RUN (12 R355). -/
def State.bootResume (s : State) : State := match s.toResume with
  | some i => { (s.bootWait false).stage 8 with mgmt := { ((s.bootWait false).stage 8).mgmt with
      resumeQ := (List.range 8).filter fun p => i.parts.getLsbD p } }
  | none => s.bootRun

/-- Stage RESUME (12 R359): each partition in turn, once every saved group of the one before that can be placed has been restored;
then RESUMED and STATUS, and stage RUN. -/
def State.resumeNext (s : State) : State :=
  if (List.range 8).any s.resumesNow then s
  else match s.mgmt.resumeQ, s.toResume with
    | p :: r, some i => { s with mgmt := { s.mgmt with resumeQ := r } }.resumePart i p
    | _, _ => { s with mgmt := { s.mgmt with resumed := s.anyRestored },
                       sched := { s.sched with ckpt := { s.sched.ckpt with status := 0 } } }.bootRun

/-- Stage LEASE ends once the reserve lease is held and every recorded lease is re-acquired (12 R358); stage RESUME goes on. -/
def State.bootAdvance (s : State) : State :=
  if s.mgmt.stage == 8 then s.resumeNext
  else if s.mgmt.stage != 7 || !s.reserveHeld then s
  else match s.toResume with
    | some i => if s.reacquired i then s.bootResume else s
    | none => s.bootRun

/-- BOOT_RETRY (17 Table 17-8): a stage that waits tries again, the Kagon ports once. In stage LEASE without the reserve lease, FAIL is 6; with
it, the recorded leases that have not come are given up (12 R358). -/
def execBootRetry (f : LinkFacts) (s : State) : Res :=
  if s.mgmt.stage == 6 && s.mgmt.waiting then
    let t := if s.mgmt.untrained then { s with mgmt := { s.mgmt with untrained := false } }.bootKagon f.kagon else s
    .next (t.bootPool f.pool)
  else if s.mgmt.stage == 7 then .next (if s.reserveHeld then s.bootResume else s.bootFail 6)
  else .next s

/-- The bytes of a chunk in a flash slot, 0 or 1, or among those that stage FWLOAD receives, 2. -/
def State.flashWrite (s : State) (slot : Nat) (c : FwChunk) : State :=
  { s with mgmt := { s.mgmt with flash := kset s.mgmt.flash slot (mwrite (kgetD s.mgmt.flash slot []) c.off c.data) } }

/-- FWIMAGE (12 Table 12-6): up to 1,024 bytes at an offset, image data in FWLOAD; after RUN, of the flash slot that was not booted.
The manual does not give the format of an image: the chunk says what image the bytes make, if any (log 96). -/
def execFwimage (slotB : Bool) (chunk : FwChunk) (s : State) : Res :=
  mgmtCmd s fun s =>
    let m := s.mgmt
    let room := match m.card with
      | some f => decide (chunk.off + chunk.data.length ≤ f.slotMiB * 2 ^ 20)
      | none => false
    if 1024 < chunk.data.length then s.emit .mgmtError
    else if m.stage == 3 && m.waiting then
      let s := s.flashWrite 2 chunk
      match chunk.image with
      | none => s
      | some img => if m.accepts img then s.bootLoad img slotB else s.bootFail 1
    else if m.stage == 9 && m.hasSlots && slotB != m.bootedB && room then
      let s := s.flashWrite slotB.toNat chunk
      { s with mgmt := if slotB then { s.mgmt with slotB := chunk.image } else { s.mgmt with slotA := chunk.image } }
    else s

/-! ### Reset and power (12 R354, R361) -/

/-- The device after a package reset: what is in flash and in fuses stays, and so do the pool and its directory, which
lie outside the device, and the model's own control. -/
def State.powerCycle (s : State) : State :=
  let m := s.mgmt
  { State.reset with
    mem := { MemSys.reset with pool := s.mem.pool, seals := s.mem.seals, pver := s.mem.pver, dir := s.mem.dir },
    sched := { Sched.reset with ckpt := { Sched.reset.ckpt with image := s.sched.ckpt.image } },
    mgmt := { Mgmt.reset with carrier := m.carrier, fuseClusters := m.fuseClusters, fuseStacks := m.fuseStacks, fusePlanes := m.fusePlanes,
                              rollback := m.rollback, slotA := m.slotA, slotB := m.slotB, flash := kdel m.flash 2, certs := m.certs },
    ctl := { s.ctl with cur := none, issue := [], selfq := [], grant := none, traps := none } }

/-- DEVRESET (12 Table 12-6): the package is reset, and starts again at stage ROM, where it meets what it met before (log 25). -/
def execDevreset (s : State) : Res :=
  mgmtCmd s fun s => match s.mgmt.carrier with
    | some f => s.powerCycle.romStart f
    | none => s.powerCycle

/-- INPUT_POWER_LOSS (12 R354): hold-up energy completes a flash write in progress, the image of a checkpoint whose
groups have all left their cores and whose dirty sectors have been written back; then power is gone. -/
def execInputPowerLoss (s : State) : Res :=
  let c := s.sched.ckpt
  let s := if c.status == 1 && s.flashOk && s.ckptQuiet c.run && (s.partsDirty c.run).isEmpty then s.ckptComplete else s
  .next s.powerCycle

end Sys2Proof.Machine
end

