-- ==== Sys2Proof/Machine/Manage.lean ====
section
/-! DEFINITION. Management registers and commands (12 R360 to R362; 16 R413, R414; 17 R415, R418, R425, R427, R430 to R433):
RDREG and WRREG, monitors, the fencing of clusters, firmware updates and restarts of mending cores. -/

namespace Sys2Proof.Machine

open Host

/-! ### Clusters (17 R431) -/

/-- A group leaves a cluster under an emergency fence: saved, else flushed, else killed; one that was to drain is decided
again (17 R431 step 3). -/
def State.emergencyLeave (s : State) (gk : Nat) (g : Group) : State :=
  let d : Option Decision := if s.canSave gk then some .save else if s.canFlush gk then some .flush else none
  if (s.seamOf gk).isSome then match g.phase with
    | .stopping .drain => s.modGroup gk fun g => { g with phase := .stopping (if s.canSave gk then .save else .drain) }
    | .run => s.preemptGroup gk .save
    | .held => s.preemptGroup gk .save
    | _ => s
  else match g.phase, d with
    | .stopping .drain, some d => s.modGroup gk fun g => { g with phase := .stopping d }
    | .stopping .drain, none => s.fenceKill gk
    | .run, some d => s.preemptGroup gk d
    | .run, none => s.fenceKill gk
    | _, _ => s

/-- The groups of a cluster that is being fenced leave it. -/
def State.fenceGroups (s : State) (cluster : Nat) (emerg : Bool) : State :=
  let gs := s.groups.filter fun e => gkGrid e.1 < 2 ^ 32 && e.2.cores.any fun c => c / 4 == cluster
  gs.foldl (fun s e =>
    if emerg then s.emergencyLeave e.1 e.2
    else if e.2.phase == .run || e.2.phase == .held then s.preemptGroup e.1 (s.decision e.1) else s) s

/-- Whether a cluster can be fenced. -/
def State.fenceable (s : State) (cluster : Nat) : Bool :=
  decide (cluster < 64) && !(s.cluster cluster).fenced && !s.mgmt.fuseClusters.getLsbD cluster

/-- A fence of a cluster starts: no group is placed there, and its groups are pre-empted. It is ignored while another CLCTL
operation is in progress. -/
def State.clusterFence (s : State) (cluster : Nat) (emerg : Bool) : State :=
  if s.mgmt.clop.isSome || !s.fenceable cluster then s
  else ({ s with mgmt := { s.mgmt with clop := some { cluster := cluster, emerg := emerg } } }).fenceGroups cluster emerg

/-- An emergency fence that the device starts itself: a fence of that cluster in progress becomes one, and behind one of another
cluster it waits (17 R430). -/
def State.fenceHot (s : State) (cluster : Nat) : State :=
  match s.mgmt.clop with
  | none => s.clusterFence cluster true
  | some o =>
    if !s.fenceable cluster then s
    else if o.cluster == cluster then
      (if o.emerg then s else { s with mgmt := { s.mgmt with clop := some { o with emerg := true } } }.fenceGroups cluster true)
    else if s.mgmt.clWait.contains cluster then s
    else { s with mgmt := { s.mgmt with clWait := s.mgmt.clWait ++ [cluster] } }

/-- The next emergency fence that waits starts. -/
def State.fenceNextHot (s : State) : State :=
  match s.mgmt.clWait with
  | [] => s
  | c :: r => ({ s with mgmt := { s.mgmt with clWait := r } }).clusterFence c true

/-- A fenced cluster returns to service. -/
def State.clusterReturn (s : State) (cluster : Nat) : State :=
  if s.mgmt.clop.isSome || !(s.cluster cluster).fenced then s else s.modCluster cluster fun c => { c with fenced := false }

/-- CLCTL_FENCE (17 R431, Table 17-6). -/
def execClctlFence (cluster : Nat) (s : State) : Res := mgmtCmd s fun s => s.clusterFence cluster false

/-- CLCTL_RETURN (17 R431). -/
def execClctlReturn (cluster : Nat) (s : State) : Res := mgmtCmd s fun s => s.clusterReturn cluster

/-- CLUSTER_FENCE_COMPLETE (17 R431 step 4): the cluster holds no group. -/
def execClusterFenceComplete (s : State) : Res :=
  match s.mgmt.clop with
  | none => .next s
  | some o =>
    if s.groups.any fun e => gkGrid e.1 < 2 ^ 32 && e.2.phase.holdsRoom && e.2.cores.any fun c => c / 4 == o.cluster then .next s
    else .next (({ s with mgmt := { s.mgmt with clop := none } }.modCluster o.cluster fun c => { c with fenced := true }).fenceNextHot)

/-! ### Monitors (12 R360; 17 R430) -/

/-- A monitor register that has been sampled. -/
def sampled (v : BitVec 16) : Word := BitVec.ofNat 32 (2 ^ 31 + v.toNat)

/-- Registers of a list of samples. -/
def sampleRegs (l : List (BitVec 16)) (n : Nat) (old : KV Word) : KV Word :=
  (List.range n).foldl (fun r i => match l[i]? with
    | some v => kset r i (sampled v)
    | none => r) old

/-- The core clock of a die in MHz: 1,950 before it is sampled (12 R360). -/
def Mgmt.clock (m : Mgmt) (d : Nat) : Nat := match kget m.fcore d with
  | some r => r.toNat % 65536
  | none => 1950

/-- The clock of a die after a sample: held at 975 MHz, or throttled by its temperature (17 Table 17-5). -/
def Mgmt.throttle (m : Mgmt) (d : Nat) (t : BitVec 16) : Nat :=
  let f := m.clock d
  if m.heldDie.contains d then 975
  else if m.tthr.toInt ≤ t.toInt then max 975 (f - 25)
  else if t.toInt < m.tthr.toInt - 40 then min 1950 (f + 25)
  else f

/-- Samples in succession of each of n units that meet a condition. -/
def runs (n : Nat) (old : KV Nat) (f : Nat → Bool) : KV Nat :=
  (List.range n).foldl (fun r i => sset 0 r i (if f i then sget 0 old i + 1 else 0)) []

/-- A sample at or above a threshold. -/
def hot (l : List (BitVec 16)) (thr : BitVec 16) (i : Nat) : Bool := match l[i]? with
  | some v => decide (thr.toInt ≤ v.toInt)
  | none => false

/-- The registers and counts after a sample. -/
def Mgmt.sample (m : Mgmt) (x : Sample) : Mgmt :=
  let ok := fun (d : Nat) => x.vok.getD d true
  let badV := runs 4 m.badV fun d => !ok d
  let goodV := runs 4 m.goodV ok
  let held := (List.range 4).filter fun d => decide (10 ≤ sget 0 badV d) || (m.heldDie.contains d && decide (sget 0 goodV d < 100))
  let pm := match m.card with
    | some f => f.pmod
    | none => false
  let m := { m with
    tdie := sampleRegs x.tdie 4 m.tdie, thbm := sampleRegs x.thbm 16 m.thbm, vcore := sampleRegs x.vcore 4 m.vcore,
    pmon := sampleRegs x.pmon 4 m.pmon, pmod := if pm then sampled x.pmod else 0, badV := badV, goodV := goodV, heldDie := held,
    hotCl := runs 64 m.hotCl (hot x.tcluster m.tcrit), hotSt := runs 16 m.hotSt (hot x.thbm m.hcrit) }
  { m with fcore := (List.range 4).foldl (fun r d => kset r d (sampled (BitVec.ofNat 16 (m.throttle d (x.tdie.getD d 0))))) m.fcore }

/-- MONITOR_SAMPLE (12 R360; 17 R430): the registers, then the fences that thresholds ask for. -/
def execMonitorSample (x : Sample) (s : State) : Res :=
  if s.mgmt.asserted then .next s
  else
    let s := { s with mgmt := s.mgmt.sample x }
    let s := ((List.range 64).filter fun c => decide (10 ≤ sget 0 s.mgmt.hotCl c)).foldl (fun (s : State) c => s.fenceHot c) s
    let ks := (List.range 16).filter fun k => decide (10 ≤ sget 0 s.mgmt.hotSt k) && s.mgmt.stackOn k
    .next (ks.foldl (fun (s : State) k => s.fenceOwn k) s)

/-! ### Mending cores (12 R361, R362; 17 R432) -/

/-- Whether a core is being updated (17 R432). -/
def Mgmt.updates (m : Mgmt) (core : Nat) : Bool := match m.mfBusy with
  | some u => u.core == core
  | none => false

/-- MRESTART. A core that an update has stopped is not halted. -/
def execMrestart (core : Nat) (off : Word) (s : State) : Res :=
  mgmtCmd s fun s => if s.mgmt.updates core then s else s.modMend core fun m => m.restart off

/-- Why a firmware update is not made: ERR 1 to 3 (17 R432). -/
def State.updateErr (s : State) (core : Nat) (img : Option FwImg) : Byte :=
  match img with
  | none => 1
  | some i =>
    let old := match s.mgmt.running with
      | some r => r.mend.version
      | none => 0
    let now := match kget s.mends core with
      | some m => m.cycles
      | none => 0
    if i.mend.version < old then 2
    else if s.mem.leases.any fun e => e.2.live && e.2.owner == core && decide (e.2.expiry < now + 1200000000) then 3
    else 0

/-- A GO write of MFWUPD (17 R432 steps 1 and 2), ignored while BUSY: the flash slot that was not booted is verified, and the core
stops. -/
def State.firmwareUpdate (s : State) (core : Nat) : State :=
  let m := s.mgmt
  if m.mfBusy.isSome then s
  else
    let img := if m.hasSlots then m.accepted (if m.bootedB then m.slotA else m.slotB) else none
    let e := s.updateErr core img
    let s := { s with mgmt := { m with mfErr := e } }
    match img with
    | some i =>
      if e != 0 then s
      else { s with mgmt := { s.mgmt with mfBusy := some { core := core, img := i, stopped := false } } }.modMend core fun c => { c with halted := true }
    | none => s

/-- An update in progress: once its core has stood still for a step, the new image replaces the code, and the core restarts; the rings,
queue and trap area of its SRAM are kept (17 R432 steps 3 and 4). -/
def State.updateAdvance (s : State) : State :=
  match s.mgmt.mfBusy with
  | none => s
  | some u =>
    if !u.stopped then { s with mgmt := { s.mgmt with mfBusy := some { u with stopped := true } } }
    else
      let s := s.modMend u.core fun c =>
        { c with code := mwrite [] 0 u.img.mend.code, pc := u.img.entry.toNat, clause := none, resume := none, halted := false, trapped := false }
      { s with mgmt := { s.mgmt with running := some u.img, mfBusy := none } }.measure 3 u.img.mend.code

/-- MFWUPD (17 R432). -/
def execMfwupd (core : Nat) (s : State) : Res := mgmtCmd s fun s => if core < 4 then s.firmwareUpdate core else s

/-! ### RDREG (12 R361) -/

/-- LNKSTAT (17 Table 17-1). -/
def KPort.stat (p : KPort) : Nat :=
  packFields [(p.retired.toNat, 8), (p.discard.toNat, 8), (p.replay.toNat, 8), (0, 6), ((p.recal != 0).toNat, 1), (p.up.toNat, 1)]

/-- CLFENCED of 32 clusters. -/
def State.clFenced (s : State) (base : Nat) : Nat :=
  packFields ((List.range 32).map fun i => ((s.cluster (base + i)).fenced.toNat, 1))

/-- The value of a management register; none for an index that no chapter defines. -/
def State.mgmtReg (s : State) (i : Nat) : Option Nat :=
  let m := s.mgmt
  let reg := fun (l : KV Word) (k : Nat) => some (kgetD l k 0).toNat
  if i == 0 then some (packFields [(m.resumed.toNat, 1), (0, 15), (m.fail.toNat, 8), (m.stage.toNat, 8)])
  else if i == 0x10 then some m.peernum.toNat
  else if i == 0x11 then some m.hostacap.toNat
  else if i == 0x12 then some (m.ldirbase.toNat % 2 ^ 32)
  else if i == 0x13 then some (m.ldirbase.toNat / 2 ^ 32)
  else if i == 0x14 || i == 0x31 then some 0
  else if i == 0x16 then some m.resumestat.toNat
  else if i == 0x30 then some (packFields [(0, 4), (m.stacksOff.toNat, 16), (0, 10), (m.fenceBusy.isSome.toNat, 1)])
  else if i == 0x32 then some (s.clFenced 0)
  else if i == 0x33 then some (s.clFenced 32)
  else if i == 0x34 then some (m.clop.isSome.toNat * 2 ^ 30)
  else if 0x100 ≤ i && i < 0x104 then reg m.tdie (i - 0x100)
  else if 0x108 ≤ i && i < 0x118 then reg m.thbm (i - 0x108)
  else if 0x120 ≤ i && i < 0x124 then reg m.vcore (i - 0x120)
  else if 0x128 ≤ i && i < 0x12C then reg m.fcore (i - 0x128)
  else if 0x130 ≤ i && i < 0x134 then reg m.pmon (i - 0x130)
  else if i == 0x140 then some m.pmod.toNat
  else if i == 0x150 then some m.tthr.toNat
  else if i == 0x151 then some m.tcrit.toNat
  else if i == 0x152 then some m.hthr.toNat
  else if i == 0x153 then some m.hcrit.toNat
  else if 0x180 ≤ i && i < 0x184 then some (match kget s.mends (i - 0x180) with
    | some c => packFields [(c.trapped.toNat, 1), (0, 23), (c.cause.toNat, 8)]
    | none => 0)
  else if 0x184 ≤ i && i < 0x188 then some (match kget s.mends (i - 0x184) with
    | some c => c.mcpc.toNat
    | none => 0)
  else if i == 0x190 then some (packFields [(0, 16), (m.mfErr.toNat, 8), (0, 6), (m.mfBusy.isSome.toNat, 1)])
  else if 0x200 ≤ i && i < 0x210 then some (s.kport (i - 0x200)).stat
  else if 0x220 ≤ i && i < 0x240 then
    some (leNat (((s.kport ((i - 0x220) / 2)).h.drop (4 * ((i - 0x220) % 2))).take 4))
  else if i == 0x240 then some (s.fab.lnkBusy.isSome.toNat * 2 ^ 30)
  else if i == 0x300 then some s.host.loss.toNat
  else if i == 0x310 then some (s.land.flt.toNat % 2 ^ 32)
  else if i == 0x311 then some (s.land.flt.toNat / 2 ^ 32)
  else if i == 0x312 then some s.land.err.toNat
  else if 0x400 ≤ i && i < 0x600 then
    let x := (sget 0 s.host.log ((i - 0x400) / 2)).toNat
    some (if i % 2 == 0 then x % 2 ^ 32 else x / 2 ^ 32)
  else none

/-- RDREG: from stage FUSE, with no session (12 Table 12-6). -/
def execRdreg (index : Nat) (s : State) : Res :=
  if !s.spdm then .next s
  else match s.mgmtReg index with
    | some v => .next (s.emit (.mgmt (leBytes 4 v)))
    | none => .next (s.emit .mgmtError)

/-! ### WRREG (12 R357, R361; 17 R415) -/

/-- The registers that stage CFG alone takes (12 R357). -/
def Mgmt.config (m : Mgmt) (i : Nat) (v : Word) : Mgmt :=
  if m.stage != 5 then m
  else if i == 0x10 then { m with peernum := v.setWidth 14 }
  else if i == 0x11 then { m with hostacap := v.setWidth 6 }
  else if i == 0x12 then { m with ldirbase := BitVec.ofNat 64 (m.ldirbase.toNat / 2 ^ 32 * 2 ^ 32 + v.toNat) }
  else { m with ldirbase := BitVec.ofNat 64 (m.ldirbase.toNat % 2 ^ 32 + v.toNat * 2 ^ 32) }

/-- CFGDONE written by WRREG (12 R357): with GO in stage CFG, stage LINKS begins and waits for what training gives. -/
def State.cfgdone (s : State) (v : Word) : State :=
  if s.mgmt.stage != 5 || !v.getLsbD 0 then s
  else { s with mgmt := { s.mgmt with resume := v.getLsbD 1, waiting := true, untrained := true } }.stage 6

/-- The effect of a WRREG. What the training of an HBM stack gives is the choice of the step (log 1). -/
def State.mgmtWrite (s : State) (i : Nat) (v : Word) : State :=
  let x := v.toNat
  let go := bitAt x 31
  if 0x10 ≤ i && i ≤ 0x13 then { s with mgmt := s.mgmt.config i v }
  else if i == 0x14 then s.cfgdone v
  else if i == 0x31 then (if go then s.stackReturn (x % 16) (s.choice / 2 % 2 == 0) else s)
  else if i == 0x30 then (if go then s.fenceStart (x % 16) else s)
  else if i == 0x34 then (if !go then s else if bitAt x 8 then s.clusterReturn (x % 64) else s.clusterFence (x % 64) false)
  else if i == 0x150 then { s with mgmt := { s.mgmt with tthr := v.setWidth 16 } }
  else if i == 0x151 then { s with mgmt := { s.mgmt with tcrit := v.setWidth 16 } }
  else if i == 0x152 then { s with mgmt := { s.mgmt with hthr := v.setWidth 16 } }
  else if i == 0x153 then { s with mgmt := { s.mgmt with hcrit := v.setWidth 16 } }
  else if i == 0x190 then (if go then s.firmwareUpdate (x % 4) else s)
  else if i == 0x240 then
    (if !go then s
     else match bitsOf x 8 2 with
       | 0 => s.lnkRecalibrate (bitsOf x 4 4) (x % 8)
       | 1 => s.lnkRetire (bitsOf x 4 4) (x % 8)
       | 2 => s.lnkRestore (bitsOf x 4 4) (x % 8)
       | _ => s)
  else if i == 0x310 then { s with land := { s.land with flt := s.land.flt &&& ~~~(v.setWidth 64) } }
  else if i == 0x311 then { s with land := { s.land with flt := s.land.flt &&& ~~~(v.setWidth 64 <<< 32) } }
  else s

/-- WRREG. -/
def execWrreg (index : Nat) (value : Word) (s : State) : Res := mgmtCmd s fun s => s.mgmtWrite index value

end Sys2Proof.Machine
end

