-- ==== Sys2Proof/Machine/Registers.lean ====
section
/-! DEFINITION. The command window as the host reads and writes it, by doublewords (00 R6; 10 Tables 10-1, 10-2, 10-13; 11
Tables 11-2 to 11-4, 11-8, 11-9, 11-12; 03 Table 3-15). -/

namespace Sys2Proof.Machine

open Host

/-! ### Areas (10 Table 10-1; 11 Table 11-2) -/

def areaQueues : Nat := 0x4000000
def areaCtl : Nat := 0x4000000
def areaCkpt : Nat := 0x4008000
def areaCounts : Nat := 0x4010000
def areaRings : Nat := 0x5000000
def areaLanding : Nat := 0x6000000
def areaStatus : Nat := 0x6001000
def areaHostWin : Nat := 0x6002000
def areaParts : Nat := 0x6003000
def areaPlanes : Nat := 0x6004000
def areaRange : Nat := 0x7000000

/-- Whether an offset lies in an area. -/
def inArea (off base size : Nat) : Bool := decide (base ≤ off) && decide (off < base + size)

/-! ### Reading -/

/-- A queue control record (10 Table 10-2). -/
def Queue.bits (r : Queue) : Nat :=
  packFields [(r.en.toNat, 1), (r.prio.toNat, 2), (0, 2), (r.part.toNat, 3), (0, 9), (r.rdidx.toNat, 12), (r.par.toNat, 1), (r.state.toNat, 2),
    (r.quantum.toNat, 16), (0, 8), (r.err.toNat, 8), (r.ptroot.toNat, 64), (r.deficit.toNat, 64)]

/-- A landing-window descriptor (03 Table 3-15). -/
def LandWin.bits (w : LandWin) : Nat :=
  packFields [(w.pages.toNat, 16), (w.base.toNat, 41), (0, 6), (w.en.toNat, 1), (w.reqid.toNat, 16), (w.mask.toNat, 16), (w.marker.toNat, 32),
    (w.count.toNat, 32)]

/-- A host-window record (11 Table 11-4). -/
def HostWin.bits (w : HostWin) : Nat :=
  packFields [(0, 30), (w.vbase.toNat, 27), (0, 3), (w.part.toNat, 3), (w.en.toNat, 1), (w.ptroot.toNat, 64)]

/-- The plane map (11 Table 11-8). -/
def Fabric.bits (f : Fabric) : Nat := packFields [(f.map.toNat, 64), (f.rv.toNat, 16), (0, 47), (f.busy.toNat, 1)]

/-- Clusters in service: neither fused nor fenced. -/
def State.clustersOn (s : State) : Nat :=
  ((List.range 64).filter fun c => !s.mgmt.fuseClusters.getLsbD c && !(s.cluster c).fenced).length

/-- The status region (11 Table 11-3). -/
def State.statusBits (s : State) : Nat :=
  packFields [((Config.devid s.mgmt.module).toNat, 32), (Config.acap.toNat, 32), (s.mgmt.peernum.toNat, 32), (s.clustersOn, 8),
    (s.mgmt.stacks.length, 8), (((List.range 16).filter s.fab.planeUp).length, 16), (s.mgmt.hostacap.toNat, 64), (s.mgmt.ldirbase.toNat, 64)]

/-- A host window. -/
def State.hostWin (s : State) (i : Nat) : HostWin := kgetD s.host.wins i HostWin.reset

/-- Doubleword j of a number. -/
def dwordOf (x j : Nat) : Nat := bitsOf x (64 * j) 64

/-- The doubleword at an aligned offset of the command window. A packet's header, the first of its slot, reads as zero: its
fields are write-only (10 Table 10-3; 00 R6). -/
def State.windowRead (s : State) (off : Nat) : Nat :=
  if off < areaQueues then (if off % 64 == 0 then 0 else s.winNum off 8)
  else if inArea off areaRings 0x1000000 then s.winNum off 8
  else if inArea off areaCtl 0x4000 then dwordOf (s.queue ((off - areaCtl) / 64)).bits ((off - areaCtl) % 64 / 8)
  else if off == areaCkpt then s.sched.ckpt.parts.toNat * 2 ^ 8 + s.sched.ckpt.status.toNat * 2 ^ 24
  else if inArea off areaCounts 0x8000 then (s.count ((off - areaCounts) / 8)).toNat
  else if inArea off areaLanding 0x800 then dwordOf (s.win ((off - areaLanding) / 32)).bits ((off - areaLanding) % 32 / 8)
  else if inArea off areaStatus 0x1000 then dwordOf s.statusBits ((off - areaStatus) / 8)
  else if inArea off areaHostWin 960 then dwordOf (s.hostWin ((off - areaHostWin) / 64)).bits ((off - areaHostWin) % 64 / 8)
  else if inArea off areaParts 512 then dwordOf (s.part ((off - areaParts) / 64)).bits ((off - areaParts) % 64 / 8)
  else if inArea off areaPlanes 24 then dwordOf s.fab.bits ((off - areaPlanes) / 8)
  else if inArea off areaRange 0x400000 then dwordOf (sget 0 s.fab.range ((off - areaRange) / 16)).toNat ((off - areaRange) % 16 / 8)
  else 0

/-- What the bytes of a doubleword that a store leaves out keep: in a packet's header what was written (00 R6). -/
def State.windowHeld (s : State) (off : Nat) : Nat := if off < areaQueues then s.winNum off 8 else s.windowRead off

/-! ### Writing (00 R6) -/

/-- A translation root as a write leaves it: reserved bits stay zero (03 Table 3-3). -/
def rootOf (x : Nat) : DWord := BitVec.ofNat 64 (x &&& ptrootMask)

/-- A control record: PRIO and QUANTUM always, PART and PTROOT only while EN = 0; then a change of EN (10 R290). -/
def State.writeQueue (s : State) (q j x : Nat) : State :=
  if j == 1 then s.modQueue q fun r => if r.en then r else { r with ptroot := rootOf x }
  else if j == 0 then
    let s := s.modQueue q fun r =>
      { r with prio := fld x 1 2, quantum := fld x 32 16, part := if r.en then r.part else fld x 5 3 }
    if bitAt x 0 then s.queueOn q else s.queueOff q
  else s

/-- The checkpoint control word (10 R318). -/
def State.writeCkpt (s : State) (x : Nat) : State :=
  let parts : Byte := fld x 8 8
  match x % 4 with
  | 1 => ckptCmd s fun s => s.ckptStart parts false
  | 2 => ckptCmd s fun s => s.ckptStart parts true
  | 3 => ckptCmd s fun s => s.ckptResume parts
  | _ => { s with sched := { s.sched with ckpt := { s.sched.ckpt with parts := parts } } }

/-- A landing-window descriptor: MARKER bits 2:0 are zero, COUNT is read-only; EN = 0 disarms the window (07 R229). -/
def State.writeLanding (s : State) (w j x : Nat) : State :=
  if j == 0 then s.modWin w fun r =>
    { r with pages := fld x 0 16, base := fld x 16 41, en := bitAt x 63, ctx := if bitAt x 63 then r.ctx else none }
  else if j == 1 then s.modWin w fun r => { r with reqid := fld x 0 16, mask := fld x 16 16, marker := BitVec.ofNat 32 (bitsOf x 35 29 * 8) }
  else s

/-- A host-window record: while EN = 1 a write that changes PTROOT, PART or VBASE is ignored, EN with it (11 R324; log 65). -/
def State.writeHostWin (s : State) (i j x : Nat) : State :=
  let r := s.hostWin i
  let r := if j == 1 then (if r.en then r else { r with ptroot := rootOf x })
    else if j == 0 then
      (let t := { r with vbase := fld x 30 27, part := fld x 60 3, en := bitAt x 63 }
       if r.en && (t.vbase != r.vbase || t.part != r.part) then r else t)
    else r
  { s with host := { s.host with wins := kset s.host.wins i r } }

/-- The RW fields of a partition record, by doubleword (11 Table 11-12). -/
def Part.write (r : Part) (j x : Nat) : Part :=
  match j with
  | 2 => { r with svroot := rootOf x }
  | 3 => { r with svcode := fld x 3 50, hbm := fld x 53 11 }
  | 4 => { r with ways := fld x 0 16, pshare := fld x 16 8, kshare := fld x 24 8, hapbase := fld x 45 19 }
  | 5 => { r with clusters := BitVec.ofNat 64 x }
  | 6 => { r with engines := BitVec.ofNat 128 (r.engines.toNat / 2 ^ 64 * 2 ^ 64 + x % 2 ^ 64) }
  | 7 => { r with engines := BitVec.ofNat 128 (r.engines.toNat % 2 ^ 64 + x % 2 ^ 64 * 2 ^ 64) }
  | _ => r

/-- A partition record: fields only while STATE = 0, or a CMD (11 R347). -/
def State.writePart (s : State) (p j x : Nat) : State :=
  if j == 0 then match x % 4 with
    | 1 => s.partStart p
    | 2 => s.partReset p
    | 3 => s.partStop p
    | _ => s
  else s.modPart p fun r => if r.state == 0 then r.write j x else r

/-- UPD of the plane map (11 R334 step 1): ignored while BUSY, and for a plane that is not enabled. -/
def State.writePlane (s : State) (x : Nat) : State := if bitAt x 63 then s.mapUpdate (bitsOf x 0 4) (bitsOf x 4 4) else s

/-- A range-table entry: EN, BASE, LIMIT, CARVE, AT, W, RD. -/
def State.writeRange (s : State) (k j x : Nat) : State :=
  let old := (sget 0 s.fab.range k).toNat
  let new := if j == 0 then old / 2 ^ 64 * 2 ^ 64 + (x / 2 ^ 6 * 2 ^ 6 + x % 2 ^ 4) % 2 ^ 64
    else old % 2 ^ 64 + bitsOf x 63 1 * 2 ^ 127
  { s with fab := { s.fab with range := sset 0 s.fab.range k (BitVec.ofNat 128 new) } }

/-- An 8-byte store of the host to an aligned offset of the command window. -/
def State.windowWrite (s : State) (off : Nat) (val : DWord) : State :=
  let x := val.toNat
  if off < areaQueues then s.winWrite off (leBytes 8 x)
  else if inArea off areaCtl 0x4000 then s.writeQueue ((off - areaCtl) / 64) ((off - areaCtl) % 64 / 8) x
  else if off == areaCkpt then s.writeCkpt x
  else if inArea off areaCounts 0x8000 then { s with sched := { s.sched with counts := sset 0 s.sched.counts ((off - areaCounts) / 8) val } }
  else if inArea off areaLanding 0x800 then s.writeLanding ((off - areaLanding) / 32) ((off - areaLanding) % 32 / 8) x
  else if inArea off areaHostWin 960 then s.writeHostWin ((off - areaHostWin) / 64) ((off - areaHostWin) % 64 / 8) x
  else if inArea off areaParts 512 then s.writePart ((off - areaParts) / 64) ((off - areaParts) % 64 / 8) x
  else if off == areaPlanes + 16 then s.writePlane x
  else if inArea off areaRange 0x400000 then s.writeRange ((off - areaRange) / 16) ((off - areaRange) % 16 / 8) x
  else s

/-- REGISTER_WRITE (00 R6): the host reaches the window through its port alone (11 R322). -/
def execRegisterWrite (off : Nat) (val : DWord) (s : State) : Res :=
  if s.host.up && off % 8 == 0 && decide (off < 2 ^ 30) then .next (s.windowWrite off val) else .next s

end Sys2Proof.Machine
end

