-- ==== Sys2Proof/Machine/HostLink.lean ====
section
/-! DEFINITION. The host port (11 R320 to R327; 08 R256, R257; 17 R424, R425): accesses of the host to the command window
and through host windows, answers of the host to requests of the device, the loss and return of the link. -/

namespace Sys2Proof.Machine

open Host

/-! ### Accesses of the host (11 R321 to R324) -/

/-- n bytes of the command window from an offset. -/
def State.windowBytes (s : State) (off n : Nat) : List Byte :=
  (List.range n).map fun i => BitVec.ofNat 8 (s.windowRead ((off + i) / 8 * 8) / 2 ^ (8 * ((off + i) % 8)))

/-- A doubleword of the command window after a write: bytes that are not written keep what they read as. -/
def State.windowNew (s : State) (off : Nat) (data : List Byte) (d : Nat) : Nat :=
  let old := leBytes 8 (s.windowHeld d)
  leNat ((List.range 8).map fun i => if off ≤ d + i && d + i < off + data.length then data.getD (d + i - off) 0 else old.getD i 0)

/-- Whether a write of several doublewords of a host-window record changes PTROOT while EN = 1: it is ignored, with its first
doubleword (11 R324; log 65). -/
def State.rootHeld (s : State) (off : Nat) (data : List Byte) (d : Nat) : Bool :=
  inArea d areaHostWin 960 && (d - areaHostWin) % 64 == 0 && decide (off < d + 16) && decide (d + 8 < off + data.length) &&
    (let r := s.hostWin ((d - areaHostWin) / 64)
     r.en && rootOf (s.windowNew off data (d + 8)) != r.ptroot)

/-- Bytes written to the command window. The fields of a record change at one instant: the first doubleword of each, which holds
its enable or command, comes after the others. -/
def State.windowStore (s : State) (off : Nat) (data : List Byte) : State :=
  let ds := (List.range ((off + data.length + 7) / 8 - off / 8)).map fun i => (off / 8 + i) * 8
  (ds.filter fun d => !s.rootHeld off data d).foldr (fun d s => s.windowWrite d (BitVec.ofNat 64 (s.windowNew off data d))) s

/-- An access of the host to the command window. -/
def State.windowAccess (s : State) (off : Nat) (a : HostAcc) : State :=
  match a with
  | .read n => s.emit (.windowData (s.windowBytes off n))
  | .write data => s.windowStore off data
  | .atomic fn ty data swap =>
    let n := esize ty.toNat
    let old := leNat (s.windowBytes off n)
    (s.windowStore off (leBytes n (atomNew fn.toNat ty.toNat old data.toNat swap.toNat))).emit (.windowData (leBytes n old))

/-- What a host access is as an operation. -/
def hostKind (a : HostAcc) : Acc :=
  match a with
  | .read _ => .recRd
  | .write _ => .store
  | .atomic fn ty _ _ => .atom fn.toNat ty.toNat true false 0 5

/-- The elements of a host access at a virtual address. -/
def hostElems (a : HostAcc) (va : Nat) : List Elem :=
  match a with
  | .read n => landElems va (List.replicate n 0)
  | .write data => landElems va data
  | .atomic _ ty data swap => [Elem.virt 0 va (esize ty.toNat) data swap 0]

/-- An access through a host window: one to a window that is not enabled reads zero, or is ignored. -/
def State.hostAccess (s : State) (win off : Nat) (a : HostAcc) : State :=
  let w := s.hostWin win
  let es := hostElems a (w.vbase.toNat * 2 ^ 30 + off)
  let o : Op := { who := .host s.opNo, ctx := winCtx win, gk := 0, insn := { pc := 0, word := 0, ext := 0 }, kind := .acc (hostKind a), lanes := 0,
                  slot := none, elems := es, hold := [], want := [], epoch := 0 }
  if es.isEmpty then s
  else if !w.en then (if o.isStore then s else s.emit (.windowData (List.replicate o.bytes 0)))
  else let k := s.opNo
       (s.addOp o).transOp k

/-- HOST_WINDOW_ACCESS (11 Table 11-1, R324): an access at an address, by its offset in the HDM range. The first GiB is the command window,
GiB i + 1 host window i. -/
def execHostWindowAccess (base addr : Nat) (acc : HostAcc) (s : State) : Res :=
  let off := addr - base
  if !s.host.up || addr < base || 2 ^ 34 ≤ off then .next s
  else if off < 2 ^ 30 then .next (s.windowAccess off acc)
  else .next (s.hostAccess (off / 2 ^ 30 - 1) (off % 2 ^ 30) acc)

/-! ### Answers of the host (11 R326, R327) -/

/-- The elements of an operation at some indexes that are not done. -/
def Op.pending (o : Op) (is : List Nat) : List (Nat × Elem) :=
  is.filterMap fun i => (o.elems[i]?).bind fun e => if e.done then none else some (i, e)

/-- Elements of an operation come to their end, each by f; the operation of an issuer is settled. -/
def State.hostSettle (s : State) (k : Nat) (is : List Nat) (f : State → Op → Elem → State × Elem) : State :=
  match kget s.ops k with
  | none => s
  | some o =>
    let s := (o.pending is).foldl (fun s x => let (t, e) := f s o x.2; t.setElem k x.1 { e with done := true }) s
    if o.isAcc then s.settleOp k else s

/-- The L1 of the issuing core takes what the host's answer to operation k says of an element's bytes (08 R247). -/
def State.pokeHost (s : State) (k : Nat) (o : Op) (e : Elem) (x : Nat) : State := s.pokeRemote k o e (some x)

/-- A read that the port issued as number id has returned: stores that left the buffer before it are accepted (11 R327), which
is when they are home (07 R197; 08 R245). -/
def State.hostAccept (s : State) (id : Nat) : State :=
  let done := s.host.loose.filter fun l => decide (l.num ≤ id)
  let s := { s with host := { s.host with loose := s.host.loose.filter fun l => decide (id < l.num) } }
  done.foldl (fun s l => s.hostSettle l.op l.elems fun s o e => (s.pokeHost l.op o e e.data.toNat, e)) s

/-- A read after the stores that left the buffer, when none is outstanding that covers them. -/
def State.flushStores (s : State) : State :=
  match s.host.loose.getLast? with
  | none => s
  | some l =>
    if s.host.reqs.any fun r => decide (l.num ≤ r.1) && r.2.n == 0 then s
    else
      let id := s.opNo
      let r : HostReq := { op := 0, elems := [], n := 0, warp := none, addr := l.addr }
      ({ s.bumpOp with host := { s.host with reqs := kset s.host.reqs id r } }).emit (.hostFlush id l.addr)

/-- The oldest entry leaves the write buffer. -/
def State.hostDrain (s : State) : State :=
  match s.host.buf with
  | [] => s
  | b :: rest =>
    let l : HostLoose := { num := s.opNo, who := b.who, gk := b.gk, addr := b.addr, op := b.op, elems := b.elems }
    let s := ({ s with host := { s.host with buf := rest, loose := s.host.loose ++ [l] } }.emit (.hostWrite b.addr b.data b.mask))
    let mine : Bool := match b.who with
      | .warp wk => (match kget s.warps wk with
        | some w => w.gk == b.gk
        | none => false)
      | _ => true
    let s := if mine then s.modHost b.who fun h => { h with last := some b.addr, unacc := true } else s
    s.flushStores

/-- Runs on an outstanding request of the port, a zero-length read or not, which is removed. -/
def State.hostDone (s : State) (id : Nat) (flush : Bool) (k : HostReq → State → State) : State :=
  match kget s.host.reqs id with
  | none => s
  | some r => if (r.n == 0) != flush then s else k r { s with host := { s.host with reqs := kdel s.host.reqs id } }

/-- A load that may be held in the L1 fills the sectors that an answer of the host covers whole (08 R248 to R250; 11 R325). -/
def State.fillHost (s : State) (k : Nat) (o : Op) (r : HostReq) (data : List Byte) (e : Elem) : State :=
  match o.kind, e.place with
  | .acc (.load true _ _), some (.host a true) =>
    let b := a / 32 * 32
    let whole := decide (r.addr ≤ b) && decide (b + 32 ≤ r.addr + r.n)
    s.remoteL1 k o (.host a true) fun x =>
      if x.epoch == o.epoch && whole then
        x.l1Fill (.host b true) ((List.range 32).map fun i => data.getD (b + i - r.addr) 0) (s.frontOf o.ctx e.va) s.choice
      else x.l1Drop (.host a true)
  | _, _ => s

/-- The elements that a read serves get their bytes of its answer. -/
def State.hostRead (s : State) (r : HostReq) (data : List Byte) : State :=
  s.hostSettle r.op r.elems fun s o e =>
    (s.fillHost r.op o r data e,
     { e with got := some (BitVec.ofNat 64 (leNat ((List.range e.n).map fun i => data.getD (e.hostAt + i - r.addr) 0))) })

/-- The element of an AtomicOp gets the old value. -/
def State.hostAtom (s : State) (r : HostReq) (v : DWord) : State :=
  s.hostSettle r.op r.elems fun s o e =>
    let old := v.toNat % 2 ^ (8 * e.n)
    (match o.kind with
     | .acc (.atom fn ty ..) => s.pokeHost r.op o e (atomNew fn ty old e.data.toNat e.swap.toNat)
     | _ => s, { e with got := some (BitVec.ofNat 64 old) })

/-- A recalled line is home again, with what the host had written (08 R257; 11 R320): its sector has stayed valid, unless its
bytes were discarded there. Stores to the record of an open lining are ignored (07 R222). -/
def State.lineBack (s : State) (line : Nat) (data : Option (List Byte)) : State :=
  if !s.mem.hostLines.contains (line * 2 + 1) then s
  else
    let a := line * 128
    let m := { s.mem with hostLines := dropNat s.mem.hostLines (line * 2 + 1) }
    let m := match data with
      | some bs =>
        if (m.leaseAt a).live && m.valid a && !(m.sec (a / 4096)).lost then
          m.poke a (bs.take 128 |>.mapIdx fun i b => if s.inLining false (a + i) then mget m.bytes (a + i) else b)
        else m
      | none => m
    ({ s with mem := m }).flitsGo (waitHost line)

/-- HOST_PORT_RESPONSE (11 R320, R326, R327). -/
def execHostPortResponse (r : HostResp) (s : State) : Res :=
  if !s.host.up then .next s
  else match r with
  | .readData id data => .next (s.hostDone id false fun r s => ((s.hostAccept id).hostRead r data).flushStores)
  | .atomicOld id v => .next (s.hostDone id false fun r s => s.hostAtom r v)
  | .flushed id => .next (s.hostDone id true fun r s =>
      let s := s.hostAccept id
      let s := match r.warp with
        | some who => s.modHost who fun h =>
            if h.rd == some id then { h with rd := none, unacc := s.host.loose.any fun l => l.who == who } else h
        | none => s
      s.flushStores)
  | .drained => .next s.hostDrain
  | .birsp line data => .next (s.lineBack line data)

/-! ### The link (17 R424, R425) -/

/-- Groups with a host-homed store that is not accepted are marked. -/
def State.markHost (s : State) : State :=
  let gs := s.host.buf.map (·.gk) ++ s.host.loose.map (·.gk)
  gs.foldl (fun s g => s.modGroup g fun g => { g with hostMark := true }) s

/-- Every entry of the write buffer is dropped and logged. -/
def State.dropBuffer (s : State) : State :=
  let buf := s.host.buf
  let s := { s with host := { buf.foldl (fun h b => h.lose b.addr) s.host with buf := [] } }
  buf.foldl (fun s b => s.hostSettle b.op b.elems fun s _ e => (s, e)) s

/-- Stores that are not accepted wait no more. -/
def State.dropLoose (s : State) : State :=
  let top := s.host.loose.foldl (fun n l => max n l.num) 0
  let done := s.host.loose
  let s := { s with host := { s.host with loose := s.host.loose.filter fun l => decide (top < l.num) } }
  done.foldl (fun s l => s.hostSettle l.op l.elems fun s _ e => (s, e)) s

/-- An outstanding read or atomic ends with HOST_LINK_DOWN; a flush read ends, and its fence completes. -/
def State.hostEnd (s : State) (r : HostReq) : State :=
  if r.n == 0 then match r.warp with
    | some who => s.modHost who fun h => { h with rd := none, unacc := false }
    | none => s
  else match kget s.ops r.op with
    | none => s
    | some o =>
      let xs := o.pending r.elems
      if xs.isEmpty then s
      else if o.who == .orphan && o.kind != .acc .probe then s.hostSettle r.op r.elems fun s _ e => (s, e)
      else
        let o := { o with elems := xs.foldl (fun es x => setAt es x.1 { x.2 with sent := false }) o.elems }
        s.gather r.op o o.progress [failedOf cHostDown 0 (xs.map (·.2))]

/-- HOST_LINK_DOWN (17 R424): lines of the host count as not held. -/
def execHostLinkDown (s : State) : Res :=
  if !s.host.up then .next s
  else
    let s := { s with host := { s.host with up := false } }
    let s := s.markHost.dropBuffer.dropLoose
    let unacc := fun (h : HostStores) => { h with unacc := false }
    let s := { s with warps := kmap (fun _ (w : Warp) => { w with hst := unacc w.hst }) s.warps,
                      mends := kmap (fun _ (m : Mend) => { m with hst := unacc m.hst }) s.mends }
    let rs := s.host.reqs.map (·.2)
    let s := { s with host := { s.host with reqs := [] } }
    let s := s.together fun s => rs.foldl (fun s r => s.hostEnd r) s
    let lines := s.mem.hostLines.map (· / 2)
    let s := { s with mem := { s.mem with hostLines := [] } }
    .next (lines.foldl (fun s l => s.flitsGo (waitHost l)) s)

/-- HOST_LINK_UP (17 R424): marks stay. The port trains in stage RUN alone (12 R355). -/
def execHostLinkUp (s : State) : Res :=
  if s.host.up || s.mgmt.stage != 9 then .next s else .next { s with host := { s.host with up := true } }

end Sys2Proof.Machine
end

