-- ==== Sys2Proof/Machine/Scalar.lean ====
section
/-! DEFINITION. The scalar class but for memory and control (06 R160 to R164, R167): one meaning for each
instruction, in a warp or on a mending core. -/

namespace Sys2Proof.Machine

open Host

/-- Form of SADD and SSUB by FN: 64-bit, saturating, signed (04 Table 4-13). -/
def addWide (f : BitVec 3) : Bool := decide (3 ≤ f.toNat)
def addSat (f : BitVec 3) : Bool := f.toNat % 3 != 0
def addSigned (f : BitVec 3) : Bool := f.toNat % 3 != 2

/-- Width of a form. -/
def bitsW (wide : Bool) : Nat := if wide then 64 else 32

/-- SADD (06 R160). -/
def execSadd (f : BitVec 3) (d a : SReg) (b : SOpnd) (s : State) : Res :=
  scalarOp (.sadd f d a b) s fun x =>
    let w := addWide f
    let n := bitsW w
    let v := ival (addSigned f) n (sval x.s w a.toNat) + ival (addSigned f) n (bval x.s w b)
    x.put w d.toNat (reduceInt (addSat f) (addSigned f) n v)

/-- SSUB (06 R160). -/
def execSsub (f : BitVec 3) (d a : SReg) (b : SOpnd) (s : State) : Res :=
  scalarOp (.ssub f d a b) s fun x =>
    let w := addWide f
    let n := bitsW w
    let v := ival (addSigned f) n (sval x.s w a.toNat) - ival (addSigned f) n (bval x.s w b)
    x.put w d.toNat (reduceInt (addSat f) (addSigned f) n v)

/-- SMUL (06 Table 6-2): 0 low .i32, 1 high .i32, 2 high .n32, 3 low .i64. -/
def execSmul (f : BitVec 3) (d a : SReg) (b : SOpnd) (s : State) : Res :=
  scalarOp (.smul f d a b) s fun x =>
    let w := f == 3
    let n := bitsW w
    let sg := f != 2
    x.put w d.toNat
      (mulInt (f == 1 || f == 2) false sg n (ival sg n (sval x.s w a.toNat)) (ival sg n (bval x.s w b)) 0)

/-- SMAD (06 R161). -/
def execSmad (high : Bool) (ty : BitVec 4) (d a b c : SReg) (s : State) : Res :=
  scalarOp (.smad high ty d a b c) s fun x =>
    let w := wide2 ty
    let n := bitsW w
    let sg := tySigned ty.toNat
    let g := fun r : SReg => ival sg n (sval x.s w r.toNat)
    x.put w d.toNat (mulInt high false sg n (g a) (g b) (g c))

/-- SDIV (06 Table 6-2; 05 Table 5-7). -/
def execSdiv (f : BitVec 3) (d a : SReg) (b : SOpnd) (s : State) : Res :=
  scalarOp (.sdiv f d a b) s fun x =>
    let w := decide (4 ≤ f.toNat)
    let r := divInt (f.toNat % 2 == 1) (f.toNat / 2 % 2 == 0) (bitsW w) (sval x.s w a.toNat) (bval x.s w b)
    (x.put w d.toNat r.1).flag r.2

/-- SLOG (06 Table 6-2). -/
def execSlog (f : BitVec 3) (d a : SReg) (b : SOpnd) (s : State) : Res :=
  scalarOp (.slog f d a b) s fun x =>
    x.put false d.toNat (logInt f.toNat 32 (sval x.s false a.toNat) (bval x.s false b))

/-- SSHF (06 Table 6-2): the amount is b[4:0]. -/
def execSshf (f : BitVec 3) (d a : SReg) (b : SOpnd) (s : State) : Res :=
  scalarOp (.sshf f d a b) s fun x =>
    x.put false d.toNat (shiftInt f.toNat 32 (sval x.s false a.toNat) (bval x.s false b % 32))

/-- SMIN (06 Table 6-2). -/
def execSmin (u : Bool) (d a : SReg) (b : SOpnd) (s : State) : Res :=
  scalarOp (.smin u d a b) s fun x =>
    x.put false d.toNat
      (wrapInt 32 (minmaxInt false (ival (!u) 32 (sval x.s false a.toNat)) (ival (!u) 32 (bval x.s false b))))

/-- SMAX (06 Table 6-2). -/
def execSmax (u : Bool) (d a : SReg) (b : SOpnd) (s : State) : Res :=
  scalarOp (.smax u d a b) s fun x =>
    x.put false d.toNat
      (wrapInt 32 (minmaxInt true (ival (!u) 32 (sval x.s false a.toNat)) (ival (!u) 32 (bval x.s false b))))

/-- SCMP (06 R162). -/
def execScmp (f : BitVec 3) (u : Bool) (q : BitVec 2) (a : SReg) (b : SOpnd) (s : State) : Res :=
  scalarOp (.scmp f u q a b) s fun x =>
    x.setQ q.toNat (cmpInt f.toNat (ival (!u) 32 (sval x.s false a.toNat)) (ival (!u) 32 (bval x.s false b)))

/-- SMOV (06 R163). -/
def execSmov (d : SReg) (b : SOpnd) (s : State) : Res :=
  scalarOp (.smov d b) s fun x => x.put false d.toNat (bval x.s false b)

/-- SSEL (06 R163). -/
def execSsel (q : BitVec 2) (d a : SReg) (b : SOpnd) (s : State) : Res :=
  scalarOp (.ssel q d a b) s fun x =>
    x.put false d.toNat (if qbit x.q q.toNat then sval x.s false a.toNat else bval x.s false b)

/-- SIMM (06 R164). -/
def execSimm (d : SReg) (imm : Word) (s : State) : Res :=
  scalarOp (.simm d imm) s fun x => x.put false d.toNat imm.toNat

/-- SCNT (06 Table 6-2): ones, leading zeros, trailing zeros of 32 bits. -/
def execScnt (f : BitVec 3) (d a : SReg) (s : State) : Res :=
  scalarOp (.scnt f d a) s fun x =>
    let v := sval x.s false a.toNat
    x.put false d.toNat (if f == 0 then popCount 32 v else if f == 1 then leadZeros 32 v else trailZeros 32 v)

/-- SRDL (06 R167): v(A) of the lowest active lane. -/
def execSrdl (d : SReg) (a : VReg) (ra : Bool) (s : State) : Res :=
  agentOp (.srdl d a ra) s
    (fun wk w c =>
      let k := (lanesOf c.act).headD 0
      doneWarp s wk { w with s := rset w.s d.toNat (w.vget a.toNat k) } c)
    (fun _ _ _ => trapRes s cOperand)

end Sys2Proof.Machine
end

