-- ==== Sys2Proof/Machine/VectorFloat.lean ====
section
/-! DEFINITION. The vector float class (06 R177 to R185). -/

namespace Sys2Proof.Machine

open Host

/-- The value of a class 3 source of a TYPE in a lane. -/
def Warp.fsrc (w : Warp) (ty : Nat) (v : VSrc) (l : Nat) : FVal := fdecode (fmtOf (code3 ty)) (w.src (ty == 3) v l)
def Warp.fcsrc (w : Warp) (ty : Nat) (v : CSrc) (l : Nat) : FVal := fdecode (fmtOf (code3 ty)) (w.csrc (ty == 3) v l)

/-- A lane-wise float instruction of a TYPE; narrow results are zero-extended (05 R126). -/
def vfltOp (i : Instr) (s : State) (ty : Nat) (d : VReg) (f : Warp → Nat → Nat × Nat) : Res :=
  vecOp i s (ty == 3) d.toNat f

/-- Sum or difference (06 Table 6-5). -/
def faddLane (sub : Bool) (ty rm : Nat) (a b : VSrc) (w : Warp) (l : Nat) : Nat × Nat :=
  let y := w.fsrc ty b l
  faddV (fmtOf (code3 ty)) (rmodeOf rm) (w.fsrc ty a l) (if sub then fnegV y else y)

/-- Product (06 Table 6-5). -/
def fmulLane (ty rm : Nat) (a b : VSrc) (w : Warp) (l : Nat) : Nat × Nat :=
  fmulR (fmtOf (code3 ty)) (rmodeOf rm) (w.fsrc ty a l) (w.fsrc ty b l)

/-- Unary function FN (06 Table 6-6). -/
def funLane (fn ty rm : Nat) (a : VSrc) (w : Warp) (l : Nat) : Nat × Nat :=
  funary fn (fmtOf (code3 ty)) (rmodeOf rm) (w.fsrc ty a l)

/-- VFADD, F3 form: .f32, .rn (04 R104). -/
def execVfadd (d : VReg) (a b : VSrc) (s : State) : Res := vfltOp (.vfadd d a b) s 2 d (faddLane false 2 0 a b)
/-- VFADD, FX form. -/
def execVfaddFx (sub : Bool) (d : VReg) (a b : VSrc) (ty : BitVec 4) (rm : BitVec 3) (s : State) : Res :=
  vfltOp (.vfaddFx sub d a b ty rm) s ty.toNat d (faddLane sub ty.toNat rm.toNat a b)
/-- VFMUL, F3 form. -/
def execVfmul (d : VReg) (a b : VSrc) (s : State) : Res := vfltOp (.vfmul d a b) s 2 d (fmulLane 2 0 a b)
/-- VFMUL, FX form. -/
def execVfmulFx (d : VReg) (a b : VSrc) (ty : BitVec 4) (rm : BitVec 3) (s : State) : Res :=
  vfltOp (.vfmulFx d a b ty rm) s ty.toNat d (fmulLane ty.toNat rm.toNat a b)
/-- VFMA: one rounding of a × b ± c (06 Table 6-5). -/
def execVfma (sub : Bool) (d : VReg) (a b : VSrc) (c : CSrc) (ty : BitVec 4) (rm : BitVec 3) (s : State) : Res :=
  vfltOp (.vfma sub d a b c ty rm) s ty.toNat d fun w l =>
    let t := ty.toNat
    let z := w.fcsrc t c l
    ffmaR (fmtOf (code3 t)) (rmodeOf rm.toNat) (w.fsrc t a l) (w.fsrc t b l) (if sub then fnegV z else z)
/-- VFMIN (06 R180). -/
def execVfmin (d : VReg) (a b : VSrc) (ty : BitVec 4) (s : State) : Res :=
  vfltOp (.vfmin d a b ty) s ty.toNat d fun w l =>
    let f := fmtOf (code3 ty.toNat)
    fminmax f false (w.src (ty == 3) a l % 2 ^ f.bits) (w.src (ty == 3) b l % 2 ^ f.bits)
/-- VFMAX (06 R180). -/
def execVfmax (d : VReg) (a b : VSrc) (ty : BitVec 4) (s : State) : Res :=
  vfltOp (.vfmax d a b ty) s ty.toNat d fun w l =>
    let f := fmtOf (code3 ty.toNat)
    fminmax f true (w.src (ty == 3) a l % 2 ^ f.bits) (w.src (ty == 3) b l % 2 ^ f.bits)
/-- VFCMP (06 R181). -/
def execVfcmp (f : BitVec 3) (p : BitVec 3) (a b : VSrc) (ty : BitVec 4) (s : State) : Res :=
  cmpOp (.vfcmp f p a b ty) s p.toNat fun w l => fcmp f.toNat (w.fsrc ty.toNat a l) (w.fsrc ty.toNat b l)
/-- VFCLS (06 R182). -/
def execVfcls (d : VReg) (a : VSrc) (ty : BitVec 4) (s : State) : Res :=
  vecOp (.vfcls d a ty) s false d.toNat fun w l =>
    let f := fmtOf (code3 ty.toNat)
    (fclass f (w.src (ty == 3) a l % 2 ^ f.bits), 0)
/-- VRCP, F3 form (06 R178). -/
def execVrcp (d : VReg) (a : VSrc) (s : State) : Res := vfltOp (.vrcp d a) s 2 d (funLane 0 2 0 a)
/-- VRCP, FX form. -/
def execVrcpFx (d : VReg) (a : VSrc) (ty : BitVec 4) (rm : BitVec 3) (s : State) : Res :=
  vfltOp (.vrcpFx d a ty rm) s ty.toNat d (funLane 0 ty.toNat rm.toNat a)
/-- VRSQ, F3 form. -/
def execVrsq (d : VReg) (a : VSrc) (s : State) : Res := vfltOp (.vrsq d a) s 2 d (funLane 1 2 0 a)
/-- VRSQ, FX form. -/
def execVrsqFx (d : VReg) (a : VSrc) (ty : BitVec 4) (rm : BitVec 3) (s : State) : Res :=
  vfltOp (.vrsqFx d a ty rm) s ty.toNat d (funLane 1 ty.toNat rm.toNat a)
/-- VEXP2, F3 form. -/
def execVexp2 (d : VReg) (a : VSrc) (s : State) : Res := vfltOp (.vexp2 d a) s 2 d (funLane 2 2 0 a)
/-- VEXP2, FX form. -/
def execVexp2Fx (d : VReg) (a : VSrc) (ty : BitVec 4) (rm : BitVec 3) (s : State) : Res :=
  vfltOp (.vexp2Fx d a ty rm) s ty.toNat d (funLane 2 ty.toNat rm.toNat a)
/-- VLOG2, F3 form. -/
def execVlog2 (d : VReg) (a : VSrc) (s : State) : Res := vfltOp (.vlog2 d a) s 2 d (funLane 3 2 0 a)
/-- VLOG2, FX form. -/
def execVlog2Fx (d : VReg) (a : VSrc) (ty : BitVec 4) (rm : BitVec 3) (s : State) : Res :=
  vfltOp (.vlog2Fx d a ty rm) s ty.toNat d (funLane 3 ty.toNat rm.toNat a)

/-- VSINCOS (06 R179): two destinations, which must differ. -/
def execVsincos (d c : VReg) (a : VSrc) (ty : BitVec 4) (rm : BitVec 3) (s : State) : Res :=
  warpOp (.vsincos d c a ty rm) s fun wk w p =>
    if d == c then trapRes s cOperand p.act
    else
      let ls := lanesOf p.act
      let g := fun l => fsincosV (fmtOf (code3 ty.toNat)) (rmodeOf rm.toNat) (w.fsrc ty.toNat a l)
      let w1 := w.putLanes false d.toNat ls fun l => (g l).1.1
      let w2 := w1.putLanes false c.toNat ls fun l => (g l).2.1
      doneWarp s wk (w2.flag (flagsOf ls fun l => (g l).1.2 ||| (g l).2.2)) p

/-- Elements of a dot-product operand (06 R183): four bytes, or four halves of a pair. -/
def dotElems (ty x : Nat) : List FVal :=
  let n := (fmtOf (code3 ty)).bits
  (List.range 4).map fun i => fdecode (fmtOf (code3 ty)) (bitsOf x (n * i) n)

/-- VDOT (06 R183). -/
def execVdot (d : VReg) (a b : VSrc) (c : CSrc) (ty : BitVec 4) (rm : BitVec 3) (s : State) : Res :=
  vecOp (.vdot d a b c ty rm) s false d.toNat fun w l =>
    let wide := ty == 0 || ty == 1
    fdot (rmodeOf rm.toNat) (dotElems ty.toNat (w.src wide a l)) (dotElems ty.toNat (w.src wide b l))
      (fdecode (fmtOf 10) (w.csrc false c l))

/-- VSCL (06 Table 6-5): b bits 7:0 are the scale. -/
def execVscl (d : VReg) (a b : VSrc) (ty : BitVec 4) (rm : BitVec 3) (s : State) : Res :=
  vfltOp (.vscl d a b ty rm) s ty.toNat d fun w l =>
    fscale (fmtOf (code3 ty.toNat)) (rmodeOf rm.toNat) (w.fsrc ty.toNat a l) (w.src false b l % 256)

/-- A converted value as its register holds it (05 R126). -/
def extendCode (code x : Nat) : Nat := if code < 8 then extendInt code x else x

/-- VFCVT, plain conversion (06 R184): the element index of .rs is the lane id (05 R135). -/
def execVfcvt (d a : VReg) (ra : Bool) (dst src : BitVec 5) (rm : BitVec 3) (seed : SReg) (sat : Bool) (s : State) : Res :=
  vecOp (.vfcvt d a ra dst src rm seed sat) s (typeBits dst.toNat == 64) d.toNat fun w l =>
    let x := w.vval (typeBits src.toNat == 64) a.toNat l
    let r := fcvt dst.toNat src.toNat (rmodeAt rm.toNat (rget w.s seed.toNat).toNat l) sat x
    (extendCode dst.toNat r.1, r.2)

/-- Lanes of a granule in a register (05 R133). -/
def granLanes (code : Nat) : Nat := if code == 17 then 4 else 8

/-- Lane of the scale within its granule (05 Table 5-4). -/
def scaleLane (code : Nat) : Nat := if code == 17 then 3 else 6

/-- The lanes of granule g. -/
def granRange (code g : Nat) : List Nat := (List.range (granLanes code)).map fun i => g * granLanes code + i

/-- Granules of a warp that have all their lanes active, and whether some granule is partly active (06 R185). -/
def granules (code width : Nat) (act : Lanes) : List Nat × Bool :=
  let gs := List.range (width / granLanes code)
  let on := fun g => (granRange code g).filter fun l => act.getLsbD l
  (gs.filter fun g => (on g).length == granLanes code,
   gs.any fun g => (on g).length != 0 && (on g).length != granLanes code)

/-- The words of a granule (05 Table 5-4). -/
def granWords (code scale : Nat) (es : List Nat) : List Nat :=
  let b := sxBits code
  let x := packFields (es.map fun e => (e, b)) + 2 ^ (24 * b) * scale
  (List.range (granLanes code)).map fun i => bitsOf x (32 * i) 32

/-- VFCVT pack (06 R185; 05 R139). -/
def execVfcvtPack (d a : VReg) (ra : Bool) (dst : BitVec 5) (rm : BitVec 3) (seed : SReg) (sat : Bool) (s : State) : Res :=
  warpOp (.vfcvtPack d a ra dst rm seed sat) s fun wk w c =>
    let code := dst.toNat
    let gs := granules code w.width c.act
    if gs.2 then trapRes s cOperand c.act
    else
      let sd := (rget w.s seed.toNat).toNat
      let val := fun g => packGranule code rm.toNat sat sd g
        ((List.range 24).map fun j => (w.vget (a.toNat + j / granLanes code) (g * granLanes code + j % granLanes code)).toNat)
      let w' := gs.1.foldl (fun x g =>
        let p := val g
        let ws := granWords code p.1 p.2.1
        (List.range (granLanes code)).foldl (fun x i =>
          x.vset d.toNat (g * granLanes code + i) (BitVec.ofNat 32 (ws.getD i 0))) (x.flag p.2.2)) w
      doneWarp s wk w' c

/-- VFCVT unpack (06 R185; 05 R140). -/
def execVfcvtUnpack (d a : VReg) (ra : Bool) (src : BitVec 5) (rm : BitVec 3) (sat : Bool) (s : State) : Res :=
  warpOp (.vfcvtUnpack d a ra src rm sat) s fun wk w c =>
    let code := src.toNat
    let n := granLanes code
    let gs := granules code w.width c.act
    if gs.2 then trapRes s cOperand c.act
    else
      let val := fun g =>
        let x := packFields ((granRange code g).map fun l => ((w.vget a.toNat l).toNat, 32))
        let b := sxBits code
        unpackGranule code rm.toNat sat (bitsOf x (24 * b) 8) ((List.range 24).map fun j => bitsOf x (b * j) b)
      let w' := gs.1.foldl (fun x g =>
        let p := val g
        (List.range 24).foldl (fun x j =>
          x.vset (d.toNat + j / n) (g * n + j % n) (BitVec.ofNat 32 (p.1.getD j 0))) (x.flag p.2)) w
      doneWarp s wk w' c

end Sys2Proof.Machine
end

