-- ==== Sys2Proof/Machine/VectorInt.lean ====
section
/-! DEFINITION. The vector integer and lane-crossing class but for REGRP (06 R168 to R175). -/

namespace Sys2Proof.Machine

open Host

/-- The integer value of a class 2 source in a lane. -/
def Warp.isrc (w : Warp) (ty : Nat) (v : VSrc) (l : Nat) : Int :=
  ival (tySigned ty) (tyBits ty) (w.src (ty % 4 == 3) v l)

def Warp.icsrc (w : Warp) (ty : Nat) (v : CSrc) (l : Nat) : Int :=
  ival (tySigned ty) (tyBits ty) (w.csrc (ty % 4 == 3) v l)

/-- A lane-wise integer instruction of a type: its n-bit result is written by R126. -/
def vintOp (i : Instr) (s : State) (ty : Nat) (d : VReg) (f : Warp → Nat → Nat × Nat) : Res :=
  vecOp i s (ty % 4 == 3) d.toNat fun w l => (extendInt ty (f w l).1, (f w l).2)

/-- Sum and difference (06 Table 6-3). -/
def addLane (sub sat : Bool) (ty : Nat) (a b : VSrc) (w : Warp) (l : Nat) : Nat × Nat :=
  let x := w.isrc ty a l
  let y := w.isrc ty b l
  (reduceInt sat (tySigned ty) (tyBits ty) (if sub then x - y else x + y), 0)

/-- Product (06 Table 6-3). -/
def mulLane (high sat : Bool) (ty : Nat) (a b : VSrc) (w : Warp) (l : Nat) : Nat × Nat :=
  (mulInt high sat (tySigned ty) (tyBits ty) (w.isrc ty a l) (w.isrc ty b l) 0, 0)

/-- Quotient or remainder (05 Table 5-7). -/
def divLane (rem : Bool) (ty : Nat) (a b : VSrc) (w : Warp) (l : Nat) : Nat × Nat :=
  divInt rem (tySigned ty) (tyBits ty) (w.src (ty % 4 == 3) a l) (w.src (ty % 4 == 3) b l)

/-- Bitwise logic on n bits (06 Table 6-3). -/
def logLane (f ty : Nat) (a b : VSrc) (w : Warp) (l : Nat) : Nat × Nat :=
  (logInt f (tyBits ty) (w.src (ty % 4 == 3) a l) (w.src (ty % 4 == 3) b l), 0)

/-- Shift by b modulo n (06 Table 6-3). -/
def shfLane (f ty : Nat) (a b : VSrc) (w : Warp) (l : Nat) : Nat × Nat :=
  (shiftInt f (tyBits ty) (w.src (ty % 4 == 3) a l) (w.src (ty % 4 == 3) b l % tyBits ty), 0)

/-- Minimum or maximum (06 Table 6-3). -/
def mmLane (maxi : Bool) (ty : Nat) (a b : VSrc) (w : Warp) (l : Nat) : Nat × Nat :=
  (wrapInt (tyBits ty) (minmaxInt maxi (w.isrc ty a l) (w.isrc ty b l)), 0)

/-- VADD, F3 form: .i32 without saturation (04 R104). -/
def execVadd (d : VReg) (a b : VSrc) (s : State) : Res := vintOp (.vadd d a b) s 2 d (addLane false false 2 a b)
/-- VADD, FX form (06 R168). -/
def execVaddFx (d : VReg) (a b : VSrc) (ty : BitVec 4) (sat : Bool) (s : State) : Res :=
  vintOp (.vaddFx d a b ty sat) s ty.toNat d (addLane false sat ty.toNat a b)
/-- VSUB, F3 form. -/
def execVsub (d : VReg) (a b : VSrc) (s : State) : Res := vintOp (.vsub d a b) s 2 d (addLane true false 2 a b)
/-- VSUB, FX form. -/
def execVsubFx (d : VReg) (a b : VSrc) (ty : BitVec 4) (sat : Bool) (s : State) : Res :=
  vintOp (.vsubFx d a b ty sat) s ty.toNat d (addLane true sat ty.toNat a b)
/-- VMUL, F3 form: low half. -/
def execVmul (d : VReg) (a b : VSrc) (s : State) : Res := vintOp (.vmul d a b) s 2 d (mulLane false false 2 a b)
/-- VMUL, FX form. -/
def execVmulFx (high : Bool) (d : VReg) (a b : VSrc) (ty : BitVec 4) (sat : Bool) (s : State) : Res :=
  vintOp (.vmulFx high d a b ty sat) s ty.toNat d (mulLane high sat ty.toNat a b)
/-- VMAD (06 Table 6-3). -/
def execVmad (high : Bool) (d : VReg) (a b : VSrc) (c : CSrc) (ty : BitVec 4) (sat : Bool) (s : State) : Res :=
  vintOp (.vmad high d a b c ty sat) s ty.toNat d fun w l =>
    let t := ty.toNat
    (mulInt high sat (tySigned t) (tyBits t) (w.isrc t a l) (w.isrc t b l) (w.icsrc t c l), 0)
/-- VDIV, F3 form: quotient. -/
def execVdiv (d : VReg) (a b : VSrc) (s : State) : Res := vintOp (.vdiv d a b) s 2 d (divLane false 2 a b)
/-- VDIV, FX form. -/
def execVdivFx (rem : Bool) (d : VReg) (a b : VSrc) (ty : BitVec 4) (s : State) : Res :=
  vintOp (.vdivFx rem d a b ty) s ty.toNat d (divLane rem ty.toNat a b)
/-- VLOG, F3 form: and (FN 0). -/
def execVlog (d : VReg) (a b : VSrc) (s : State) : Res := vintOp (.vlog d a b) s 2 d (logLane 0 2 a b)
/-- VLOG, FX form. -/
def execVlogFx (f : BitVec 3) (d : VReg) (a b : VSrc) (ty : BitVec 4) (s : State) : Res :=
  vintOp (.vlogFx f d a b ty) s ty.toNat d (logLane f.toNat ty.toNat a b)
/-- VSHF, F3 form: shl (FN 0). -/
def execVshf (d : VReg) (a b : VSrc) (s : State) : Res := vintOp (.vshf d a b) s 2 d (shfLane 0 2 a b)
/-- VSHF, FX form. -/
def execVshfFx (f : BitVec 3) (d : VReg) (a b : VSrc) (ty : BitVec 4) (s : State) : Res :=
  vintOp (.vshfFx f d a b ty) s ty.toNat d (shfLane f.toNat ty.toNat a b)
/-- VMIN (06 Table 6-3). -/
def execVmin (d : VReg) (a b : VSrc) (ty : BitVec 4) (s : State) : Res :=
  vintOp (.vmin d a b ty) s ty.toNat d (mmLane false ty.toNat a b)
/-- VMAX (06 Table 6-3). -/
def execVmax (d : VReg) (a b : VSrc) (ty : BitVec 4) (s : State) : Res :=
  vintOp (.vmax d a b ty) s ty.toNat d (mmLane true ty.toNat a b)

/-- VCMP (06 R169). -/
def execVcmp (f : BitVec 3) (p : BitVec 3) (a b : VSrc) (ty : BitVec 4) (s : State) : Res :=
  cmpOp (.vcmp f p a b ty) s p.toNat fun w l => (cmpInt f.toNat (w.isrc ty.toNat a l) (w.isrc ty.toNat b l), 0)

/-- VSEL (06 R170). -/
def execVsel (p : BitVec 3) (n z : Bool) (d : VReg) (a b : VSrc) (wide : Bool) (s : State) : Res :=
  vecOp (.vsel p n z d a b wide) s wide d.toNat fun w l =>
    (if (w.predN p.toNat n).getLsbD l then w.src wide a l else if z then 0 else w.src wide b l, 0)

/-- VMOV (06 R171). -/
def execVmov (d : VReg) (a : VSrc) (s : State) : Res :=
  vecOp (.vmov d a) s false d.toNat fun w l => (w.src false a l, 0)

/-- VIMM (06 R171). -/
def execVimm (d : VReg) (imm : Word) (s : State) : Res :=
  vecOp (.vimm d imm) s false d.toNat fun _ _ => (imm.toNat, 0)

/-- VCNT (06 Table 6-4). -/
def execVcnt (lz : Bool) (d : VReg) (a : VSrc) (ty : BitVec 4) (s : State) : Res :=
  vecOp (.vcnt lz d a ty) s false d.toNat fun w l =>
    let x := w.src (wide2 ty) a l
    (if lz then leadZeros (tyBits ty.toNat) x else popCount (tyBits ty.toNat) x, 0)

/-- A bit field outside the word (06 R172). -/
def fieldBad (pos : BitVec 5) (len : BitVec 6) : Bool := decide (32 < len.toNat) || decide (32 < pos.toNat + len.toNat)

/-- VBFX (06 Table 6-4): TYPE 2 sign-extends, 6 zero-extends. -/
def execVbfx (d : VReg) (a : VSrc) (ty : BitVec 4) (pos : BitVec 5) (len : BitVec 6) (s : State) : Res :=
  if fieldBad pos len then warpOp (.vbfx d a ty pos len) s fun _ _ c => trapRes s cOperand c.act
  else vecOp (.vbfx d a ty pos len) s false d.toNat fun w l =>
    let x := w.src false a l / 2 ^ pos.toNat
    (if len == 0 then 0 else wrapInt 32 (ival (ty == 2) len.toNat x), 0)

/-- VBFI (06 Table 6-4). -/
def execVbfi (d : VReg) (a b : VSrc) (ty : BitVec 4) (pos : BitVec 5) (len : BitVec 6) (s : State) : Res :=
  if fieldBad pos len then warpOp (.vbfi d a b ty pos len) s fun _ _ c => trapRes s cOperand c.act
  else vecOp (.vbfi d a b ty pos len) s false d.toNat fun w l =>
    let m := (2 ^ len.toNat - 1) * 2 ^ pos.toNat
    let x := w.src false a l % 2 ^ len.toNat * 2 ^ pos.toNat
    (logInt 3 32 (w.src false b l) m ||| x, 0)

/-- Source lane of a shuffle (06 R173). -/
def shufLane (f : Nat) (lane sel : Nat) : Int :=
  match f with
  | 0 => sel
  | 1 => (lane : Int) - sel
  | 2 => lane + sel
  | _ => ((lane ^^^ sel : Nat) : Int)

/-- VSHUF (06 R173): a lane outside the active set gives no value. -/
def execVshuf (f : BitVec 2) (d : VReg) (a b : VSrc) (ty : BitVec 4) (s : State) : Res :=
  warpOp (.vshuf f d a b ty) s fun wk w c =>
    let wide := wide2 ty
    let pick := fun l =>
      let j := shufLane f.toNat l (w.src false b l)
      if decide (0 ≤ j) && decide (j < w.width) && c.act.getLsbD j.toNat then w.src wide a j.toNat else w.src wide a l
    doneWarp s wk (w.putLanes wide d.toNat (lanesOf c.act) pick) c

/-- VVOTE (06 R174). -/
def execVvote (f : BitVec 2) (d : SReg) (p : BitVec 3) (n : Bool) (s : State) : Res :=
  warpOp (.vvote f d p n) s fun wk w c =>
    let t := w.predN p.toNat n &&& c.act
    let r := match f.toNat with
      | 0 => rset w.s d.toNat (if t != 0 then 1 else 0)
      | 1 => rset w.s d.toNat (if t == c.act then 1 else 0)
      | _ => (List.range (ballotRegs w.width)).foldl
          (fun r i => rset r (d.toNat + i) (BitVec.ofNat 32 (t.toNat / 2 ^ (32 * i)))) w.s
    doneWarp s wk { w with s := r } c

/-- Identity of a scan (06 R175). -/
def scanInit (op ty : Nat) : Int :=
  let n := tyBits ty
  match op with
  | 1 => intMax (tySigned ty) n
  | 2 => intMin (tySigned ty) n
  | 3 => if tySigned ty then -1 else 2 ^ n - 1
  | _ => 0

/-- One step of a scan (06 R175): add is reduced by R141 at every step. -/
def scanStep (op ty : Nat) (sat : Bool) (acc x : Int) : Int :=
  let n := tyBits ty
  let sg := tySigned ty
  match op with
  | 0 => ival sg n (reduceInt sat sg n (acc + x))
  | 1 => min acc x
  | 2 => max acc x
  | _ => ival sg n (logInt (op - 3) n (wrapInt n acc) (wrapInt n x))

/-- Lanes with the values an inclusive or exclusive scan gives them, and the final accumulator. -/
def scanLanes (step : Int → Int → Int) (excl : Bool) (get : Nat → Int) : List Nat → Int → List (Nat × Int) × Int
  | [], acc => ([], acc)
  | l :: r, acc =>
    let acc' := step acc (get l)
    let rest := scanLanes step excl get r acc'
    ((l, if excl then acc else acc') :: rest.1, rest.2)

/-- VSCAN (06 R175). -/
def execVscan (op : BitVec 3) (d a : VReg) (ra : Bool) (ty : BitVec 4) (sat excl : Bool) (s : State) : Res :=
  warpOp (.vscan op d a ra ty sat excl) s fun wk w c =>
    let t := ty.toNat
    let r := scanLanes (scanStep op.toNat t sat) excl (fun l => w.isrc t (.vec a ra) l) (lanesOf c.act)
      (scanInit op.toNat t)
    let w' := r.1.foldl (fun x e => x.vput (wide2 ty) d.toNat e.1 (extendInt t (wrapInt (tyBits t) e.2))) w
    doneWarp s wk w' c

/-- VRED (06 R175). -/
def execVred (op : BitVec 3) (d a : VReg) (ra : Bool) (ty : BitVec 4) (sat : Bool) (s : State) : Res :=
  warpOp (.vred op d a ra ty sat) s fun wk w c =>
    let t := ty.toNat
    let ls := lanesOf c.act
    let r := scanLanes (scanStep op.toNat t sat) false (fun l => w.isrc t (.vec a ra) l) ls (scanInit op.toNat t)
    doneWarp s wk (w.putLanes (wide2 ty) d.toNat ls fun _ => extendInt t (wrapInt (tyBits t) r.2)) c

end Sys2Proof.Machine
end

