-- ==== Sys2Proof/Machine/Dispatch.lean ====
section
/-! DEFINITION. The dispatch: one arm for each constructor of Instr, a direct call of its meaning. -/

namespace Sys2Proof.Machine

open Host

/-- The meaning of each instruction and event. -/
def exec (i : Instr) (s : State) : Host.Outcome State Fault Refusal :=
  match i with
  | .bra off => Sys2Proof.Machine.execBra off s
  | .brc p n off => Sys2Proof.Machine.execBrc p n off s
  | .brv p n all off => Sys2Proof.Machine.execBrv p n all off s
  | .call link off => Sys2Proof.Machine.execCall link off s
  | .ret a ra => Sys2Proof.Machine.execRet a ra s
  | .jmpi a ra => Sys2Proof.Machine.execJmpi a ra s
  | .exit p n => Sys2Proof.Machine.execExit p n s
  | .rcw q bound => Sys2Proof.Machine.execRcw q bound s
  | .barg b => Sys2Proof.Machine.execBarg b s
  | .bara b => Sys2Proof.Machine.execBara b s
  | .wany m => Sys2Proof.Machine.execWany m s
  | .ebind d a b => Sys2Proof.Machine.execEbind d a b s
  | .emask op m d => Sys2Proof.Machine.execEmask op m d s
  | .eclr rd d a => Sys2Proof.Machine.execEclr rd d a s
  | .yield => Sys2Proof.Machine.execYield s
  | .sadd f d a b => Sys2Proof.Machine.execSadd f d a b s
  | .ssub f d a b => Sys2Proof.Machine.execSsub f d a b s
  | .smul f d a b => Sys2Proof.Machine.execSmul f d a b s
  | .smad high ty d a b c => Sys2Proof.Machine.execSmad high ty d a b c s
  | .sdiv f d a b => Sys2Proof.Machine.execSdiv f d a b s
  | .slog f d a b => Sys2Proof.Machine.execSlog f d a b s
  | .sshf f d a b => Sys2Proof.Machine.execSshf f d a b s
  | .smin u d a b => Sys2Proof.Machine.execSmin u d a b s
  | .smax u d a b => Sys2Proof.Machine.execSmax u d a b s
  | .scmp f u q a b => Sys2Proof.Machine.execScmp f u q a b s
  | .sjmp f d a imm => Sys2Proof.Machine.execSjmp f d a imm s
  | .smov d b => Sys2Proof.Machine.execSmov d b s
  | .ssel q d a b => Sys2Proof.Machine.execSsel q d a b s
  | .simm d imm => Sys2Proof.Machine.execSimm d imm s
  | .sld d a w slot k => Sys2Proof.Machine.execSld d a w slot k s
  | .sst d a w k => Sys2Proof.Machine.execSst d a w k s
  | .srdl d a ra => Sys2Proof.Machine.execSrdl d a ra s
  | .scnt f d a => Sys2Proof.Machine.execScnt f d a s
  | .vadd d a b => Sys2Proof.Machine.execVadd d a b s
  | .vaddFx d a b ty sat => Sys2Proof.Machine.execVaddFx d a b ty sat s
  | .vsub d a b => Sys2Proof.Machine.execVsub d a b s
  | .vsubFx d a b ty sat => Sys2Proof.Machine.execVsubFx d a b ty sat s
  | .vmul d a b => Sys2Proof.Machine.execVmul d a b s
  | .vmulFx high d a b ty sat => Sys2Proof.Machine.execVmulFx high d a b ty sat s
  | .vmad high d a b c ty sat => Sys2Proof.Machine.execVmad high d a b c ty sat s
  | .vdiv d a b => Sys2Proof.Machine.execVdiv d a b s
  | .vdivFx rem d a b ty => Sys2Proof.Machine.execVdivFx rem d a b ty s
  | .vlog d a b => Sys2Proof.Machine.execVlog d a b s
  | .vlogFx f d a b ty => Sys2Proof.Machine.execVlogFx f d a b ty s
  | .vshf d a b => Sys2Proof.Machine.execVshf d a b s
  | .vshfFx f d a b ty => Sys2Proof.Machine.execVshfFx f d a b ty s
  | .vmin d a b ty => Sys2Proof.Machine.execVmin d a b ty s
  | .vmax d a b ty => Sys2Proof.Machine.execVmax d a b ty s
  | .vcmp f p a b ty => Sys2Proof.Machine.execVcmp f p a b ty s
  | .vsel p n z d a b wide => Sys2Proof.Machine.execVsel p n z d a b wide s
  | .vmov d a => Sys2Proof.Machine.execVmov d a s
  | .vimm d imm => Sys2Proof.Machine.execVimm d imm s
  | .vcnt lz d a ty => Sys2Proof.Machine.execVcnt lz d a ty s
  | .vbfx d a ty pos len => Sys2Proof.Machine.execVbfx d a ty pos len s
  | .vbfi d a b ty pos len => Sys2Proof.Machine.execVbfi d a b ty pos len s
  | .vshuf f d a b ty => Sys2Proof.Machine.execVshuf f d a b ty s
  | .vvote f d p n => Sys2Proof.Machine.execVvote f d p n s
  | .vscan op d a ra ty sat excl => Sys2Proof.Machine.execVscan op d a ra ty sat excl s
  | .vred op d a ra ty sat => Sys2Proof.Machine.execVred op d a ra ty sat s
  | .regrp a b m => Sys2Proof.Machine.execRegrp a b m s
  | .vfadd d a b => Sys2Proof.Machine.execVfadd d a b s
  | .vfaddFx sub d a b ty rm => Sys2Proof.Machine.execVfaddFx sub d a b ty rm s
  | .vfmul d a b => Sys2Proof.Machine.execVfmul d a b s
  | .vfmulFx d a b ty rm => Sys2Proof.Machine.execVfmulFx d a b ty rm s
  | .vfma sub d a b c ty rm => Sys2Proof.Machine.execVfma sub d a b c ty rm s
  | .vfmin d a b ty => Sys2Proof.Machine.execVfmin d a b ty s
  | .vfmax d a b ty => Sys2Proof.Machine.execVfmax d a b ty s
  | .vfcmp f p a b ty => Sys2Proof.Machine.execVfcmp f p a b ty s
  | .vfcls d a ty => Sys2Proof.Machine.execVfcls d a ty s
  | .vfcvt d a ra dst src rm seed sat => Sys2Proof.Machine.execVfcvt d a ra dst src rm seed sat s
  | .vfcvtPack d a ra dst rm seed sat => Sys2Proof.Machine.execVfcvtPack d a ra dst rm seed sat s
  | .vfcvtUnpack d a ra src rm sat => Sys2Proof.Machine.execVfcvtUnpack d a ra src rm sat s
  | .vrcp d a => Sys2Proof.Machine.execVrcp d a s
  | .vrcpFx d a ty rm => Sys2Proof.Machine.execVrcpFx d a ty rm s
  | .vrsq d a => Sys2Proof.Machine.execVrsq d a s
  | .vrsqFx d a ty rm => Sys2Proof.Machine.execVrsqFx d a ty rm s
  | .vexp2 d a => Sys2Proof.Machine.execVexp2 d a s
  | .vexp2Fx d a ty rm => Sys2Proof.Machine.execVexp2Fx d a ty rm s
  | .vlog2 d a => Sys2Proof.Machine.execVlog2 d a s
  | .vlog2Fx d a ty rm => Sys2Proof.Machine.execVlog2Fx d a ty rm s
  | .vsincos d c a ty rm => Sys2Proof.Machine.execVsincos d c a ty rm s
  | .vdot d a b c ty rm => Sys2Proof.Machine.execVdot d a b c ty rm s
  | .vscl d a b ty rm => Sys2Proof.Machine.execVscl d a b ty rm s
  | .ld d cnt m off ty slot => Sys2Proof.Machine.execLd d cnt m off ty slot s
  | .st d cnt m off ty slot => Sys2Proof.Machine.execSt d cnt m off ty slot s
  | .ldb d cnt m off ty slot => Sys2Proof.Machine.execLdb d cnt m off ty slot s
  | .lds d cnt seam swz m off ty slot => Sys2Proof.Machine.execLds d cnt seam swz m off ty slot s
  | .sts d cnt seam swz m off ty slot => Sys2Proof.Machine.execSts d cnt seam swz m off ty slot s
  | .atom f d m c ty ord scope noret sd slot => Sys2Proof.Machine.execAtom f d m c ty ord scope noret sd slot s
  | .atoms f d m c ty sd swz seam slot => Sys2Proof.Machine.execAtoms f d m c ty sd swz seam slot s
  | .fence scope kind => Sys2Proof.Machine.execFence scope kind s
  | .wadr d cnt m off ty probe => Sys2Proof.Machine.execWadr d cnt m off ty probe s
  | .pref cnt m off ty => Sys2Proof.Machine.execPref cnt m off ty s
  | .cpx a b c => Sys2Proof.Machine.execCpx a b c s
  | .cgatIdx a b ty => Sys2Proof.Machine.execCgatIdx a b ty s
  | .cgatRow d a b c kind swz => Sys2Proof.Machine.execCgatRow d a b c kind swz s
  | .csct d a b c kind swz => Sys2Proof.Machine.execCsct d a b c kind swz s
  | .cred f d a b ty kind swz => Sys2Proof.Machine.execCred f d a b ty kind swz s
  | .cseal cw add d a => Sys2Proof.Machine.execCseal cw add d a s
  | .cwait n => Sys2Proof.Machine.execCwait n s
  | .turn a slot => Sys2Proof.Machine.execTurn a slot s
  | .lnopen d a b c => Sys2Proof.Machine.execLnopen d a b c s
  | .lnopenClose d => Sys2Proof.Machine.execLnopenClose d s
  | .pfoldFetch a b c => Sys2Proof.Machine.execPfoldFetch a b c s
  | .pfoldInstall a => Sys2Proof.Machine.execPfoldInstall a s
  | .pfoldRelease a b c => Sys2Proof.Machine.execPfoldRelease a b c s
  | .foldx a => Sys2Proof.Machine.execFoldx a s
  | .landarm a => Sys2Proof.Machine.execLandarm a s
  | .tld t a b darned ty rows sp acc slot => Sys2Proof.Machine.execTld t a b darned ty rows sp acc slot s
  | .tst t a b rows slot => Sys2Proof.Machine.execTst t a b rows slot s
  | .tzero t k => Sys2Proof.Machine.execTzero t k s
  | .tcvt d a ty rm c0 sat slot => Sys2Proof.Machine.execTcvt d a ty rm c0 sat slot s
  | .tmovVt t a ra b ty n hem sp acc form slot => Sys2Proof.Machine.execTmovVt t a ra b ty n hem sp acc form slot s
  | .tmovTv d t b n hem slot => Sys2Proof.Machine.execTmovTv d t b n hem slot s
  | .mma d a b c hi zc slot => Sys2Proof.Machine.execMma d a b c hi zc slot s
  | .mmas d a b c hi zc slot => Sys2Proof.Machine.execMmas d a b c hi zc slot s
  | .nop => Sys2Proof.Machine.execNop s
  | .sread d sel => Sys2Proof.Machine.execSread d sel s
  | .csrr d c => Sys2Proof.Machine.execCsrr d c s
  | .csrw a c => Sys2Proof.Machine.execCsrw a c s
  | .svreq a n => Sys2Proof.Machine.execSvreq a n s
  | .mbxSend d a slot => Sys2Proof.Machine.execMbxSend d a slot s
  | .mbxRecv d c slot => Sys2Proof.Machine.execMbxRecv d c slot s
  | .xgrow nb k => Sys2Proof.Machine.execXgrow nb k s
  | .xdrop k => Sys2Proof.Machine.execXdrop k s
  | .seamj => Sys2Proof.Machine.execSeamj s
  | .seamd => Sys2Proof.Machine.execSeamd s
  | .tfence => Sys2Proof.Machine.execTfence s
  | .pginvPage a slot => Sys2Proof.Machine.execPginvPage a slot s
  | .pginvCtx slot => Sys2Proof.Machine.execPginvCtx slot s
  | .leaseopRd d a slot => Sys2Proof.Machine.execLeaseopRd d a slot s
  | .leaseopWr a b slot => Sys2Proof.Machine.execLeaseopWr a b slot s
  | .halt => Sys2Proof.Machine.execHalt s
  | .demnext d => Sys2Proof.Machine.execDemnext d s
  | .rcwTimeout warp => Sys2Proof.Machine.execRcwTimeout warp s
  | .wanyResume warp => Sys2Proof.Machine.execWanyResume warp s
  | .wanyTimeout warp => Sys2Proof.Machine.execWanyTimeout warp s
  | .windowGrant u elapsed => Sys2Proof.Machine.execWindowGrant u elapsed s
  | .registerResultLanding op elem => Sys2Proof.Machine.execRegisterResultLanding op elem s
  | .registerGrant core quad => Sys2Proof.Machine.execRegisterGrant core quad s
  | .mailboxArrival n => Sys2Proof.Machine.execMailboxArrival n s
  | .demandRecordPost core => Sys2Proof.Machine.execDemandRecordPost core s
  | .demrespReplay core tag => Sys2Proof.Machine.execDemrespReplay core tag s
  | .demrespDecline core tag cause => Sys2Proof.Machine.execDemrespDecline core tag cause s
  | .l1SectorDrop core sector => Sys2Proof.Machine.execL1SectorDrop core sector s
  | .asyncOpComplete op n => Sys2Proof.Machine.execAsyncOpComplete op n s
  | .batchFinish warp => Sys2Proof.Machine.execBatchFinish warp s
  | .matrixPipeStart cluster pipe => Sys2Proof.Machine.execMatrixPipeStart cluster pipe s
  | .matrixEntryComplete cluster pipe rows => Sys2Proof.Machine.execMatrixEntryComplete cluster pipe rows s
  | .leaseExpiry lease => Sys2Proof.Machine.execLeaseExpiry lease s
  | .lacq core slot => Sys2Proof.Machine.execLacq core slot s
  | .lgrant core m => Sys2Proof.Machine.execLgrant core m s
  | .ldeny core m => Sys2Proof.Machine.execLdeny core m s
  | .lrenew core slot => Sys2Proof.Machine.execLrenew core slot s
  | .lrel core slot => Sys2Proof.Machine.execLrel core slot s
  | .llost core node => Sys2Proof.Machine.execLlost core node s
  | .directoryBackInvalidation lease r => Sys2Proof.Machine.execDirectoryBackInvalidation lease r s
  | .bisnp page contents => Sys2Proof.Machine.execBisnp page contents s
  | .poolCompletion id => Sys2Proof.Machine.execPoolCompletion id s
  | .poolTimeout id => Sys2Proof.Machine.execPoolTimeout id s
  | .poolPortDown port => Sys2Proof.Machine.execPoolPortDown port s
  | .poolPortRetrain port ok => Sys2Proof.Machine.execPoolPortRetrain port ok s
  | .landingWrite req off data poisoned => Sys2Proof.Machine.execLandingWrite req off data poisoned s
  | .launch q => Sys2Proof.Machine.execLaunch q s
  | .fencePacket q => Sys2Proof.Machine.execFencePacket q s
  | .countPacket q => Sys2Proof.Machine.execCountPacket q s
  | .writePacket q => Sys2Proof.Machine.execWritePacket q s
  | .copyPacket q => Sys2Proof.Machine.execCopyPacket q s
  | .packetComplete q slot => Sys2Proof.Machine.execPacketComplete q slot s
  | .queueEnable q => Sys2Proof.Machine.execQueueEnable q s
  | .queueDisable q => Sys2Proof.Machine.execQueueDisable q s
  | .groupPlacement part => Sys2Proof.Machine.execGroupPlacement part s
  | .preemption part => Sys2Proof.Machine.execPreemption part s
  | .saveComplete group => Sys2Proof.Machine.execSaveComplete group s
  | .reserve src seam => Sys2Proof.Machine.execReserve src seam s
  | .reserved src seam => Sys2Proof.Machine.execReserved src seam s
  | .busy src seam => Sys2Proof.Machine.execBusy src seam s
  | .commit src seam => Sys2Proof.Machine.execCommit src seam s
  | .ready src seam => Sys2Proof.Machine.execReady src seam s
  | .go src seam => Sys2Proof.Machine.execGo src seam s
  | .release src seam => Sys2Proof.Machine.execRelease src seam s
  | .revoke src seam => Sys2Proof.Machine.execRevoke src seam s
  | .stopreq src seam => Sys2Proof.Machine.execStopreq src seam s
  | .stop src seam => Sys2Proof.Machine.execStop src seam s
  | .stopped src seam dec => Sys2Proof.Machine.execStopped src seam dec s
  | .save src seam => Sys2Proof.Machine.execSave src seam s
  | .detached src seam member => Sys2Proof.Machine.execDetached src seam member s
  | .exitdone src seam => Sys2Proof.Machine.execExitdone src seam s
  | .rendezvousTimeout seam => Sys2Proof.Machine.execRendezvousTimeout seam s
  | .rendezvousRetry seam => Sys2Proof.Machine.execRendezvousRetry seam s
  | .ckptAndStop parts => Sys2Proof.Machine.execCkptAndStop parts s
  | .ckptAndContinue parts => Sys2Proof.Machine.execCkptAndContinue parts s
  | .ckptResume parts => Sys2Proof.Machine.execCkptResume parts s
  | .checkpointDone ok => Sys2Proof.Machine.execCheckpointDone ok s
  | .hostWindowAccess base addr acc => Sys2Proof.Machine.execHostWindowAccess base addr acc s
  | .planeMapUpdate slice plane => Sys2Proof.Machine.execPlaneMapUpdate slice plane s
  | .planeRemapCommit => Sys2Proof.Machine.execPlaneRemapCommit s
  | .flitRead port f => Sys2Proof.Machine.execFlitRead port f s
  | .flitWrite port f => Sys2Proof.Machine.execFlitWrite port f s
  | .atomicWithResult port f => Sys2Proof.Machine.execAtomicWithResult port f s
  | .atomicWithoutResult port f => Sys2Proof.Machine.execAtomicWithoutResult port f s
  | .reduction port f => Sys2Proof.Machine.execReduction port f s
  | .readData port f => Sys2Proof.Machine.execReadData port f s
  | .writeDone port f => Sys2Proof.Machine.execWriteDone port f s
  | .atomicResult port f => Sys2Proof.Machine.execAtomicResult port f s
  | .notImplemented port f => Sys2Proof.Machine.execNotImplemented port f s
  | .refused port f => Sys2Proof.Machine.execRefused port f s
  | .firmwareMessage core m => Sys2Proof.Machine.execFirmwareMessage core m s
  | .migreq core m => Sys2Proof.Machine.execMigreq core m s
  | .migdone core m => Sys2Proof.Machine.execMigdone core m s
  | .mignak core m => Sys2Proof.Machine.execMignak core m s
  | .migctlHold core page => Sys2Proof.Machine.execMigctlHold core page s
  | .migctlForward core => Sys2Proof.Machine.execMigctlForward core s
  | .migctlClear core page => Sys2Proof.Machine.execMigctlClear core page s
  | .migctlEndHold core => Sys2Proof.Machine.execMigctlEndHold core s
  | .holdDrained core => Sys2Proof.Machine.execHoldDrained core s
  | .partitionStart p => Sys2Proof.Machine.execPartitionStart p s
  | .partitionReset p => Sys2Proof.Machine.execPartitionReset p s
  | .partitionStop p => Sys2Proof.Machine.execPartitionStop p s
  | .keyInstall p key => Sys2Proof.Machine.execKeyInstall p key s
  | .getMeasurements req => Sys2Proof.Machine.execGetMeasurements req s
  | .setCertificate slot chain => Sys2Proof.Machine.execSetCertificate slot chain s
  | .packageResetRelease f => Sys2Proof.Machine.execPackageResetRelease f s
  | .cfgdoneGo resume f => Sys2Proof.Machine.execCfgdoneGo resume f s
  | .bootRetry f => Sys2Proof.Machine.execBootRetry f s
  | .rdreg index => Sys2Proof.Machine.execRdreg index s
  | .wrreg index value => Sys2Proof.Machine.execWrreg index value s
  | .fwimage slotB chunk => Sys2Proof.Machine.execFwimage slotB chunk s
  | .mrestart core off => Sys2Proof.Machine.execMrestart core off s
  | .devreset => Sys2Proof.Machine.execDevreset s
  | .monitorSample m => Sys2Proof.Machine.execMonitorSample m s
  | .trapRecordDelivery core => Sys2Proof.Machine.execTrapRecordDelivery core s
  | .stuckGroupTimeout group => Sys2Proof.Machine.execStuckGroupTimeout group s
  | .uncorrectableError loc => Sys2Proof.Machine.execUncorrectableError loc s
  | .lostSectorAck core slot => Sys2Proof.Machine.execLostSectorAck core slot s
  | .hbmFence stack => Sys2Proof.Machine.execHbmFence stack s
  | .hbmFenceComplete => Sys2Proof.Machine.execHbmFenceComplete s
  | .hbmret stack ok => Sys2Proof.Machine.execHbmret stack ok s
  | .laneHealthUpdate port bursts => Sys2Proof.Machine.execLaneHealthUpdate port bursts s
  | .lnkctlRecalibrate port lane => Sys2Proof.Machine.execLnkctlRecalibrate port lane s
  | .lnkctlRetire port lane => Sys2Proof.Machine.execLnkctlRetire port lane s
  | .lnkctlRestore port lane => Sys2Proof.Machine.execLnkctlRestore port lane s
  | .laneRetrainDone port lane ok => Sys2Proof.Machine.execLaneRetrainDone port lane ok s
  | .kagonPortDown port => Sys2Proof.Machine.execKagonPortDown port s
  | .kagonRequestTimeout plane tag => Sys2Proof.Machine.execKagonRequestTimeout plane tag s
  | .hostLinkDown => Sys2Proof.Machine.execHostLinkDown s
  | .clctlFence cluster => Sys2Proof.Machine.execClctlFence cluster s
  | .clctlReturn cluster => Sys2Proof.Machine.execClctlReturn cluster s
  | .clusterFenceComplete => Sys2Proof.Machine.execClusterFenceComplete s
  | .mfwupd core => Sys2Proof.Machine.execMfwupd core s
  | .registerWrite off val => Sys2Proof.Machine.execRegisterWrite off val s
  | .appliedAtHome op elem => Sys2Proof.Machine.execAppliedAtHome op elem s
  | .hostPortResponse r => Sys2Proof.Machine.execHostPortResponse r s
  | .hostLinkUp => Sys2Proof.Machine.execHostLinkUp s
  | .kagonPortUp port => Sys2Proof.Machine.execKagonPortUp port s
  | .flitCrcFailure rcv => Sys2Proof.Machine.execFlitCrcFailure rcv s
  | .flitDiscard rcv => Sys2Proof.Machine.execFlitDiscard rcv s
  | .nonPostedRequest req => Sys2Proof.Machine.execNonPostedRequest req s
  | .correctedError stack => Sys2Proof.Machine.execCorrectedError stack s
  | .stackFailure stack => Sys2Proof.Machine.execStackFailure stack s
  | .inputPowerLoss => Sys2Proof.Machine.execInputPowerLoss s
  | .keyExchange ok => Sys2Proof.Machine.execKeyExchange ok s

end Sys2Proof.Machine
end

