-- ==== Sys2Proof/Machine/Agenda.lean ====
section
/-! DEFINITION. What a step does (log 1, 7, 21, 22): the next instruction of the window in progress, the next event that
arrives, or an event of the device's own; and what the device does of itself after each. -/

namespace Sys2Proof.Machine

open Host

/-! ### Events of the device's own, in a fixed order (log 22) -/

/-- Requests and asynchronous operations in flight, messages, trap records, register grants. -/
def State.coreEvents (s : State) : List Instr :=
  s.ops.map (fun e => if e.2.isAcc then Instr.registerResultLanding e.1 none else Instr.asyncOpComplete e.1 0) ++
  (List.range s.sends.length).map Instr.mailboxArrival ++
  s.cores.flatMap fun e =>
    (if e.2.traps.isEmpty then [] else [Instr.trapRecordDelivery e.1]) ++ e.2.xq.map fun r => Instr.registerGrant e.1 r.quad

/-- Events of resident warps. -/
def State.warpEvents (s : State) : List Instr :=
  s.warps.flatMap fun e =>
    (if e.2.rcw.isSome then [Instr.rcwTimeout e.1] else []) ++
    (match e.2.park with
     | .wany .. => [Instr.wanyResume e.1, Instr.wanyTimeout e.1]
     | _ => []) ++
    if e.2.sealed.isEmpty then [] else [Instr.batchFinish e.1]

/-- Events of the matrix units whose clusters hold groups with queued entries. -/
def State.matrixEvents (s : State) : List Instr :=
  (s.groups.filter fun e => !e.2.mq.isEmpty).flatMap fun e => (List.range 5).flatMap fun p =>
    [Instr.matrixEntryComplete e.2.cluster p 64, Instr.matrixPipeStart e.2.cluster p]

/-- Slots of a ring of n whose last byte has a bit set. -/
def Mend.slotsWith (m : Mend) (base n bit : Nat) : List Nat :=
  m.sram.filterMap fun e => if base ≤ e.1 && e.1 < base + 32 * n && (e.1 - base) % 32 == 31 && bitAt e.2.toNat bit then some ((e.1 - base) / 32) else none

/-- Events of a mending core. -/
def Mend.events (c : Nat) (m : Mend) : List Instr :=
  [Instr.demandRecordPost c] ++
  (if m.mig.isSome then [Instr.holdDrained c] else []) ++
  (m.slotsWith leaseOut 64 7).flatMap (fun i => [Instr.lacq c i, Instr.lrenew c i, Instr.lrel c i]) ++
  ((m.slotsWith faultRing 256 7).filter (m.slotsWith faultRing 256 6).contains).map (Instr.lostSectorAck c)

/-- Events of the memory system and of Kagon. A lost sector is acknowledged by ACK in its entry (16 R408). -/
def State.memEvents (s : State) : List Instr :=
  s.mends.flatMap (fun e => e.2.events e.1) ++ (s.mem.leases.map fun e => Instr.leaseExpiry e.1) ++
  [Instr.planeRemapCommit, Instr.hbmFenceComplete, Instr.clusterFenceComplete, Instr.hostPortResponse .drained]

/-- Events of the scheduler. -/
def State.schedEvents (s : State) : List Instr :=
  (s.groups.map fun e => Instr.saveComplete e.1) ++
  (s.sched.packets.map fun p => Instr.packetComplete p.q p.slot) ++
  (s.grids.map fun g => Instr.packetComplete g.2.q g.2.pslot) ++
  (s.sched.queues.flatMap fun q =>
    [Instr.launch q.1, Instr.fencePacket q.1, Instr.countPacket q.1, Instr.writePacket q.1, Instr.copyPacket q.1]) ++
  (s.sched.parts.flatMap fun p => [Instr.groupPlacement p.1, Instr.preemption p.1]) ++
  (s.seams.flatMap fun m => [Instr.rendezvousTimeout (BitVec.ofNat 32 m.1), Instr.rendezvousRetry (BitVec.ofNat 32 m.1)]) ++
  (s.groups.map fun e => Instr.stuckGroupTimeout e.1) ++
  (if s.sched.ckpt.status == 1 then [Instr.checkpointDone true] else [])

/-- A window for every quad that holds a warp and every mending core that runs. -/
def State.roundEvents (s : State) : List Instr :=
  let quads := (s.warps.map fun e => (wkCore e.1, slotQuad (wkSlot e.1))).eraseDups
  quads.map (fun q => Instr.windowGrant (.quad q.1 q.2) 1) ++
    (s.mends.filter fun m => !m.2.halted).map fun m => Instr.windowGrant (.mend m.1) 1

/-- What the first event of a list that changes the state makes of it. -/
def State.firstEvent (s : State) : List Instr → Option State
  | [] => none
  | i :: r => match exec i s with
    | .next t => if t = s then s.firstEvent r else some t
    | _ => s.firstEvent r

/-- An event of the device's own; when none is due, a round of windows. -/
def State.ownEvent (s : State) : State :=
  match s.firstEvent (s.coreEvents ++ s.warpEvents ++ s.matrixEvents ++ s.memEvents ++ s.schedEvents) with
  | some t => t
  | none => { s with ctl := { s.ctl with agenda := s.roundEvents } }

/-! ### After each step -/

/-- Whether an agent of the window in progress may still issue: a resident warp that is not parked, held at issue or
stopped with its group, or a mending core that runs. -/
def State.mayIssue (s : State) (a : Agent) : Bool :=
  match a with
  | .warp wk => (match kget s.warps wk with
    | some w => s.issuable w
    | none => false)
  | .mend m => (match kget s.mends m with
    | some x => !x.halted
    | none => false)

/-- Entries and messages that waited enter the rings of a mending core (11 R337, R340; 16 R397). -/
def Mend.drain (m : Mend) : Mend :=
  let m := if m.lmWait.isEmpty then m else m.leaseDrain m.lmWait
  let m := if m.frWait.isEmpty then m else m.faultDrain m.frWait
  if m.fwWait.isEmpty then m else m.fwDrain m.fwWait

/-- The agents of the window in progress that may issue no more drop out, and a choice is used up. -/
def State.trim (s : State) : State :=
  { s with ctl := { s.ctl with cur := none, issue := s.ctl.issue.filter s.mayIssue, choices := s.ctl.choices.drop 1 } }

/-- What the device does of itself after each instruction or event: a parked WANY is evaluated in the step in which
something changes (02 R52); a window in which nothing issued goes to the next slot
(02 R26). -/
def State.settle (s : State) : State :=
  let s := (s.retireAll.reportGones.wanyAll (fun _ => true) 0).markStuck
  let s := { s with mends := kmap (fun _ (m : Mend) => m.drain) s.mends }
  s.fwSendAll.resetsEnd.bootAdvance.updateAdvance.trim.nextWindow

/-! ### The step -/

/-- The agent issues no more in this window. -/
def State.popIssue (s : State) (r : List Agent) : State := { s with ctl := { s.ctl with issue := r } }

/-- The event that arrives next, and the state without it: a message of the device to itself, or what comes from
outside; when both wait, the choice of the step says which. -/
def State.popEvent (s : State) : Option (Instr × State) :=
  match s.ctl.selfq, s.ctl.agenda with
  | e :: r, [] => some (e, { s with ctl := { s.ctl with cur := none, selfq := r } })
  | [], e :: r => some (e, { s with ctl := { s.ctl with cur := none, agenda := r } })
  | e :: r, a :: q =>
    if s.choice % 2 == 1 then some (a, { s with ctl := { s.ctl with cur := none, agenda := q } })
    else some (e, { s with ctl := { s.ctl with cur := none, selfq := r } })
  | [], [] => none

/-- An instruction of the window in progress, fetched into a state t: its window counts as granted once it issues (02 R26). -/
def State.issueInstr (t : State) (i : Instr) : Res :=
  match exec i t with
  | .next s => .next (s.countGrant t)
  | .fault f => .fault f
  | .refused f => .refused f

/-- What comes next, before what the device does of itself. -/
def State.advance (s : State) : Res :=
  match s.ctl.issue with
  | a :: r => match (s.popIssue r).fetch a with
    | .exec i t => t.issueInstr i
    | .done t => .next t
  | [] => match s.popEvent with
    | some (i, t) => exec i t
    | none => .next s.ownEvent

/-- The device settles after a next state. -/
def afterStep (r : Res) : Res :=
  match r with
  | .next s => .next s.settle
  | .fault f => .fault f
  | .refused f => .refused f

end Sys2Proof.Machine
end

