-- ==== Sys2Proof/Machine/Step.lean ====
section
/-! DEFINITION. One step, and the placement of one instruction where the next step fetches it (log 5). -/

namespace Sys2Proof.Machine

open Host

/-- One step: the next instruction or event, and what the device does of itself after it. -/
def step (s : State) : Outcome State Fault Refusal := Sys2Proof.Machine.afterStep s.advance

/-- The grid of a placed instruction: one group of one warp of 16 lanes, with tiles. -/
def placedGrid (s : State) : Grid :=
  { gridOf s 0 0 { code := 0, est := 0, width := 16, regx := 0, warps := 1, scratch := 4096, pair := false, idem := false,
                   tile := true, seam := false, members := 1 } none with
    ngroups := 1, nextg := 1 }

/-- Page tables at local addresses 0x1000 to 0x5000 that map the page at virtual address 0 to local address 0x10000, with
every permission (03 R62 to R65). -/
def placedTables : List (Nat × Nat) :=
  [(0x1000, 0x2001), (0x2000, 0x3001), (0x3000, 0x4001), (0x4000, 0x5001), (0x5000, 0x4000F)]

/-- The header of a clause of one instruction of n words (04 Table 4-1). -/
def placedHeader (w n : Nat) : Nat := packFields [(n, 4), (w / 2 ^ 29 % 8, 3), (1, 1), (0, 9), (7, 3), (0, 4), (0xA5, 8)]

/-- The code of a placed instruction. -/
def placedCode (w : Nat) : List Byte :=
  leBytes 4 (placedHeader (w % 2 ^ 32) (instrLen (w % 2 ^ 32))) ++ leBytes 8 w

/-- Instructions that only a mending core executes (07 R235, R243, R244). -/
def mendsOnly : Instr → Bool
  | .leaseopRd .. => true
  | .leaseopWr .. => true
  | .halt => true
  | .demnext _ => true
  | _ => false

/-- The instruction stands at the start of the code of a resident warp, or of mending core 0 for those of mending cores
alone, and is the next to be issued. -/
def State.withFetchWord (s : State) (nbits w : Nat) : State :=
  let w := w % 2 ^ nbits
  let m : Bool := match decodeTableWord nbits w with
    | some i => mendsOnly i
    | none => false
  let s := { s with mgmt := { s.mgmt with asserted := false, stage := 9 }, ctl := { s.ctl with issue := [], agenda := [], selfq := [] } }
  if m then
    let x := { Mend.reset with code := mwrite [] 0 (placedCode w), halted := false }
    { s with mends := kset s.mends 0 x, ctl := { s.ctl with issue := [.mend 0] } }
  else
    let secs := [1, 2, 3, 4, 5, 16].foldl (fun (l : KV Sector) k => kset l k { valid := true, dirty := true, lost := false }) s.mem.secs
    let bytes := placedTables.foldl (fun (m : Memory) e => mwrite m e.1 (leBytes 8 e.2)) s.mem.bytes
    let mem := { s.mem with bytes := mwrite bytes 0x10000 (placedCode w), secs := secs,
                            leases := kset s.mem.leases 0 { bits := BitVec.ofNat 128 (2 ^ 125 + 2 ^ 64 - 1), last := 0 } }
    let part := { Part.reset with state := 1, clusters := 1, engines := 1, hbm := 1024 }
    let g := { placedGrid s with ptroot := 0x1000 }
    let s := { s with mem := mem, grids := kset s.grids 1 g, sched := { s.sched with parts := kset s.sched.parts 0 part } }
    let s := s.startGroup 1 0 .run [0] [0]
    { s with ctl := { s.ctl with issue := [.warp 0] } }

end Sys2Proof.Machine
end

