-- ==== Sys2Proof/Safety.lean ====
section
/-! DEFINITION. What claims call a safe run. -/

namespace Sys2Proof

open Host Sys2Proof.Machine

/-- A meaning answers a next state. -/
def Answers (r : Res) : Prop := ∃ t, r = .next t

/-- A state steps without a fault or a refusal. -/
def SafeStep (s : State) : Prop := Answers (step s)

/-- A state runs k steps without a fault or a refusal. -/
def SafeRun : Nat → State → Prop
  | 0, _ => True
  | k + 1, s => ∃ t, step s = .next t ∧ SafeRun k t

end Sys2Proof
end

