-- ==== Sys2Proof/Certificates/Slice0/Obligations.lean ====
section
/-! DEFINITION. The statements about the model. Each says in its docstring which rules of the manual it formalises. -/

namespace Sys2Proof.Cert

open Host Sys2Proof.Machine

/-! ### What an issuing agent is, and how an instruction leaves it -/

/-- Warp wk is the one issuing, inside clause c. -/
def Issues (s : State) (wk : Nat) (w : Warp) (c : ClausePos) : Prop :=
  s.ctl.cur = some (.warp wk) ∧ kget s.warps wk = some w ∧ w.clause = some c

/-- The fields of an instruction are ones that an encoding gives; its registers are in range and aligned, and no
outstanding write names them. -/
def Free (i : Instr) (s : State) (wk : Nat) (w : Warp) : Prop :=
  i.wf = true ∧ opndsOk i false w.width w.held = true ∧ s.regWait wk w (instrOpnds i false w.width) = false

/-- The next state in which the issuing warp has become w and has gone on to the next instruction; all else is as before. -/
def goesOn (s : State) (wk : Nat) (w : Warp) (c : ClausePos) : Res := .next (s.setWarp wk (w.advance c s.insnLen))

/-- The same of a mending core. -/
def MendIssues (s : State) (m : Nat) (x : Mend) (c : ClausePos) : Prop :=
  s.ctl.cur = some (.mend m) ∧ kget s.mends m = some x ∧ x.clause = some c
def MendFree (i : Instr) (s : State) (m : Nat) : Prop :=
  i.wf = true ∧ mendFields i = true ∧ opndsOk i true 1 0 = true ∧ s.opPending (.mend m) (instrOpnds i true 1) = false
def mendGoesOn (s : State) (m : Nat) (x : Mend) (c : ClausePos) : Res := .next (s.setMend m (x.advance c s.insnLen))

/-- Both hypotheses on a warp, and on a mending core. -/
def Runs (i : Instr) (s : State) (wk : Nat) (w : Warp) (c : ClausePos) : Prop := Issues s wk w c ∧ Free i s wk w
def MendRuns (i : Instr) (s : State) (m : Nat) (x : Mend) (c : ClausePos) : Prop := MendIssues s m x c ∧ MendFree i s m

/-! ### Scalar values -/

/-- The second operand of an FS word as 32 bits, and as 64. -/
def word (r : Regs) : SOpnd → Word
  | .reg b => rget r b.toNat
  | .imm k => k.signExtend 32
def dword (r : Regs) : SOpnd → DWord
  | .reg b => (rget r (b.toNat + 1)) ++ (rget r b.toNat)
  | .imm k => k.signExtend 64

/-- A scalar, and a pair with its low half in the even register. -/
def sreg (r : Regs) (i : SReg) : Word := rget r i.toNat
def spair (r : Regs) (i : SReg) : DWord := (rget r (i.toNat + 1)) ++ (rget r i.toNat)

/-- A scalar context with a register, or a pair, written. -/
def wr (x : SCtx) (d : SReg) (v : Word) : SCtx := { x with s := rset x.s d.toNat v }
def wrPair (x : SCtx) (d : SReg) (v : DWord) : SCtx :=
  { x with s := rset (rset x.s d.toNat (v.extractLsb' 0 32)) (d.toNat + 1) (v.extractLsb' 32 32) }

/-- In a warp and on a mending core, the instruction changes the scalar registers, q bits and flags by f, changes nothing
else but the place in the clause, and answers a next state. -/
def ScalarEffect (i : Instr) (f : SCtx → SCtx) : Prop :=
  (∀ s wk w c, Runs i s wk w c → exec i s = goesOn s wk (w.withSctx (f w.sctx)) c) ∧
  (∀ s m x c, MendRuns i s m x c → exec i s = mendGoesOn s m (x.withSctx (f x.sctx)) c)

/-- Saturation to n signed or unsigned bits. -/
def clampS (n : Nat) (v : Int) : Int := max (-(2 ^ (n - 1))) (min (2 ^ (n - 1) - 1) v)
def clampU (n : Nat) (v : Int) : Int := max 0 (min (2 ^ n - 1) v)

/-- Quotient and remainder of two values of one width, with the DZ flag (05 Table 5-7). -/
def quot {n : Nat} (signed : Bool) (a b : BitVec n) : BitVec n := if b = 0 then BitVec.allOnes n else if signed then a.sdiv b else a / b
def remn {n : Nat} (signed : Bool) (a b : BitVec n) : BitVec n := if b = 0 then a else if signed then a.srem b else a % b
def dzOf {n : Nat} (b : BitVec n) (x : SCtx) : SCtx := if b = 0 then { x with fl := x.fl ||| 2 } else x

end Sys2Proof.Cert

open Host Sys2Proof Sys2Proof.Machine Sys2Proof.Cert

/-- 06 R160, Table 6-2; 05 R141: SADD and SSUB in every form, in a warp and on a mending core: wrapping and saturating,
signed and unsigned, of 32 and 64 bits. Nothing else changes. -/
def Sys2Proof.Cert.ScalarSumsAndDifferences : Prop :=
  ∀ (d a : SReg) (b : SOpnd),
    ScalarEffect (.sadd 0 d a b) (fun x => wr x d (sreg x.s a + word x.s b)) ∧
    ScalarEffect (.sadd 1 d a b) (fun x => wr x d (BitVec.ofInt 32 (clampS 32 ((sreg x.s a).toInt + (word x.s b).toInt)))) ∧
    ScalarEffect (.sadd 2 d a b) (fun x => wr x d (BitVec.ofInt 32 (clampU 32 ((sreg x.s a).toNat + (word x.s b).toNat)))) ∧
    ScalarEffect (.sadd 3 d a b) (fun x => wrPair x d (spair x.s a + dword x.s b)) ∧
    ScalarEffect (.sadd 4 d a b) (fun x => wrPair x d (BitVec.ofInt 64 (clampS 64 ((spair x.s a).toInt + (dword x.s b).toInt)))) ∧
    ScalarEffect (.sadd 5 d a b) (fun x => wrPair x d (BitVec.ofInt 64 (clampU 64 ((spair x.s a).toNat + (dword x.s b).toNat)))) ∧
    ScalarEffect (.ssub 0 d a b) (fun x => wr x d (sreg x.s a - word x.s b)) ∧
    ScalarEffect (.ssub 1 d a b) (fun x => wr x d (BitVec.ofInt 32 (clampS 32 ((sreg x.s a).toInt - (word x.s b).toInt)))) ∧
    ScalarEffect (.ssub 2 d a b) (fun x => wr x d (BitVec.ofInt 32 (clampU 32 ((sreg x.s a).toNat - (word x.s b).toNat)))) ∧
    ScalarEffect (.ssub 3 d a b) (fun x => wrPair x d (spair x.s a - dword x.s b)) ∧
    ScalarEffect (.ssub 4 d a b) (fun x => wrPair x d (BitVec.ofInt 64 (clampS 64 ((spair x.s a).toInt - (dword x.s b).toInt)))) ∧
    ScalarEffect (.ssub 5 d a b) (fun x => wrPair x d (BitVec.ofInt 64 (clampU 64 ((spair x.s a).toNat - (dword x.s b).toNat))))

/-- 06 R160, R161; 05 Table 5-7: SMUL, SMAD and SDIV in every form. A division by zero sets DZ (bit 1 of AFLAGS). -/
def Sys2Proof.Cert.ScalarProductsAndQuotients : Prop :=
  ∀ (d a c : SReg) (b : SOpnd) (r : SReg),
    ScalarEffect (.smul 0 d a b) (fun x => wr x d (sreg x.s a * word x.s b)) ∧
    ScalarEffect (.smul 1 d a b) (fun x => wr x d
      (((sreg x.s a).signExtend 64 * (word x.s b).signExtend 64).extractLsb' 32 32)) ∧
    ScalarEffect (.smul 2 d a b) (fun x => wr x d
      (((sreg x.s a).setWidth 64 * (word x.s b).setWidth 64).extractLsb' 32 32)) ∧
    ScalarEffect (.smul 3 d a b) (fun x => wrPair x d (spair x.s a * dword x.s b)) ∧
    (∀ ty : BitVec 4, ty = 2 ∨ ty = 6 →
      ScalarEffect (.smad false ty d a r c) (fun x => wr x d (sreg x.s a * sreg x.s r + sreg x.s c))) ∧
    (∀ ty : BitVec 4, ty = 3 ∨ ty = 7 →
      ScalarEffect (.smad false ty d a r c) (fun x => wrPair x d (spair x.s a * spair x.s r + spair x.s c))) ∧
    ScalarEffect (.smad true 2 d a r c) (fun x => wr x d
      (((sreg x.s a).signExtend 64 * (sreg x.s r).signExtend 64 + (sreg x.s c).signExtend 64).extractLsb' 32 32)) ∧
    ScalarEffect (.smad true 6 d a r c) (fun x => wr x d
      (((sreg x.s a).setWidth 64 * (sreg x.s r).setWidth 64 + (sreg x.s c).setWidth 64).extractLsb' 32 32)) ∧
    ScalarEffect (.sdiv 0 d a b) (fun x => dzOf (word x.s b) (wr x d (quot true (sreg x.s a) (word x.s b)))) ∧
    ScalarEffect (.sdiv 1 d a b) (fun x => dzOf (word x.s b) (wr x d (remn true (sreg x.s a) (word x.s b)))) ∧
    ScalarEffect (.sdiv 2 d a b) (fun x => dzOf (word x.s b) (wr x d (quot false (sreg x.s a) (word x.s b)))) ∧
    ScalarEffect (.sdiv 3 d a b) (fun x => dzOf (word x.s b) (wr x d (remn false (sreg x.s a) (word x.s b)))) ∧
    ScalarEffect (.sdiv 4 d a b) (fun x => dzOf (dword x.s b) (wrPair x d (quot true (spair x.s a) (dword x.s b)))) ∧
    ScalarEffect (.sdiv 5 d a b) (fun x => dzOf (dword x.s b) (wrPair x d (remn true (spair x.s a) (dword x.s b)))) ∧
    ScalarEffect (.sdiv 6 d a b) (fun x => dzOf (dword x.s b) (wrPair x d (quot false (spair x.s a) (dword x.s b)))) ∧
    ScalarEffect (.sdiv 7 d a b) (fun x => dzOf (dword x.s b) (wrPair x d (remn false (spair x.s a) (dword x.s b))))

namespace Sys2Proof.Cert

open Host Sys2Proof.Machine

/-! ### Comparisons, counts, lanes -/

/-- Comparison by function code, signed or unsigned (04 Table 4-13). -/
def compares (f : Nat) (x y : Int) : Bool :=
  match f with
  | 0 => decide (x = y)
  | 1 => decide (x ≠ y)
  | 2 => decide (x < y)
  | 3 => decide (x ≤ y)
  | 4 => decide (x > y)
  | _ => decide (x ≥ y)

/-- The value of n bits as an integer. -/
def intOf {n : Nat} (signed : Bool) (x : BitVec n) : Int := if signed then x.toInt else (x.toNat : Int)

/-- Number of one bits. -/
def ones {n : Nat} (x : BitVec n) : Nat := (List.range n).countP fun i => x.getLsbD i

/-- A class 2 or 3 source of 32 bits in a lane: a vector register, or a scalar that every lane sees. -/
def lane32 (w : Warp) (v : VSrc) (l : Nat) : Word :=
  match v with
  | .vec r _ => w.vget r.toNat l
  | .scl r => rget w.s r.toNat

/-- A source of 64 bits: an even pair of either file. -/
def lane64 (w : Warp) (v : VSrc) (l : Nat) : DWord :=
  match v with
  | .vec r _ => w.vget (r.toNat + 1) l ++ w.vget r.toNat l
  | .scl r => rget w.s (r.toNat + 1) ++ rget w.s r.toNat

/-- Sources as vector or scalar operands B and C. -/
def asSrc : CSrc → VSrc
  | .vec r => .vec r false
  | .scl r => .scl r

/-- The n bits of a typed integer source: those of the pair, or the low bits of the register (06 R168). -/
def bitsV (ty : BitVec 4) (w : Warp) (v : VSrc) (l : Nat) : BitVec (tyBits ty.toNat) :=
  if wide2 ty then (lane64 w v l).setWidth _ else (lane32 w v l).setWidth _

/-- The value of a typed integer source in a lane. -/
def numV (ty : BitVec 4) (w : Warp) (v : VSrc) (l : Nat) : Int := intOf (tySigned ty.toNat) (bitsV ty w v l)

/-- What a register, or a pair, holds of an integer result of a type: its low n bits, extended by the type's sign to the
register (05 R126). -/
def holdV (ty : BitVec 4) (v : Int) : Nat :=
  let b := BitVec.ofInt (tyBits ty.toNat) v
  if wide2 ty then b.toNat else if tySigned ty.toNat then (b.signExtend 32).toNat else b.toNat

/-- An exact result, saturated to the type when SAT is 1 (05 R141). -/
def satV (sat : Bool) (ty : BitVec 4) (v : Int) : Int :=
  if sat then (if tySigned ty.toNat then clampS (tyBits ty.toNat) v else clampU (tyBits ty.toNat) v) else v

/-- The operations of scans and reductions on values of a type, and their identities (06 R175). -/
def combine (op : Nat) (sat : Bool) (ty : BitVec 4) (x y : Int) : Int :=
  let n := tyBits ty.toNat
  let sg := tySigned ty.toNat
  match op with
  | 0 => intOf sg (BitVec.ofInt n (satV sat ty (x + y)))
  | 1 => min x y
  | 2 => max x y
  | 3 => intOf sg (BitVec.ofInt n x &&& BitVec.ofInt n y)
  | 4 => intOf sg (BitVec.ofInt n x ||| BitVec.ofInt n y)
  | _ => intOf sg (BitVec.ofInt n x ^^^ BitVec.ofInt n y)
def identity (op : Nat) (ty : BitVec 4) : Int :=
  let n := tyBits ty.toNat
  match op with
  | 1 => if tySigned ty.toNat then 2 ^ (n - 1) - 1 else 2 ^ n - 1
  | 2 => if tySigned ty.toNat then -(2 ^ (n - 1)) else 0
  | 3 => if tySigned ty.toNat then -1 else 2 ^ n - 1
  | _ => 0

/-- The combination of a source over lanes in their order. -/
def scanOf (op : Nat) (sat : Bool) (ty : BitVec 4) (w : Warp) (a : VSrc) (ls : List Nat) : Int :=
  ls.foldl (fun x k => combine op sat ty x (numV ty w a k)) (identity op ty)

/-- No flag in any lane. -/
def noFlag : Warp → Nat → Nat := fun _ _ => 0

/-- A vector instruction writes v in each active lane of its destination, ORs the lanes' flags into AFLAGS, changes
nothing else but the place in the clause, and answers a next state. -/
def Lanewise (i : Instr) (wide : Bool) (d : VReg) (v : Warp → Nat → Nat) (fl : Warp → Nat → Nat) : Prop :=
  ∀ s wk w c, Runs i s wk w c →
    exec i s = goesOn s wk ((w.putLanes wide d.toNat (lanesOf c.act) (v w)).flag (flagsOf (lanesOf c.act) (fl w))) c

/-- A comparison writes its predicate in the active lanes. -/
def Compares (i : Instr) (p : BitVec 3) (v : Warp → Nat → Bool) (fl : Warp → Nat → Nat) : Prop :=
  ∀ s wk w c, Runs i s wk w c →
    exec i s = goesOn s wk ((w.setPred p.toNat c.act (lanesMask ((lanesOf c.act).filter (v w)))).flag
      (flagsOf (lanesOf c.act) (fl w))) c

/-- A warp instruction makes the issuing warp f of it, changes nothing else, and goes on. -/
def WarpEffect (i : Instr) (f : ClausePos → Warp → Warp) : Prop :=
  ∀ s wk w c, Runs i s wk w c → exec i s = goesOn s wk (f c w) c

end Sys2Proof.Cert

open Host Sys2Proof Sys2Proof.Machine Sys2Proof.Cert

/-- 06 R160, R162 to R164: SLOG, SSHF, SMIN, SMAX, SCMP, SMOV, SSEL, SIMM and SCNT in every form. -/
def Sys2Proof.Cert.ScalarLogicShiftsAndMoves : Prop :=
  ∀ (d a : SReg) (b : SOpnd) (q : BitVec 2) (imm : Word),
    ScalarEffect (.slog 0 d a b) (fun x => wr x d (sreg x.s a &&& word x.s b)) ∧
    ScalarEffect (.slog 1 d a b) (fun x => wr x d (sreg x.s a ||| word x.s b)) ∧
    ScalarEffect (.slog 2 d a b) (fun x => wr x d (sreg x.s a ^^^ word x.s b)) ∧
    ScalarEffect (.slog 3 d a b) (fun x => wr x d (sreg x.s a &&& ~~~(word x.s b))) ∧
    ScalarEffect (.slog 4 d a b) (fun x => wr x d (sreg x.s a ||| ~~~(word x.s b))) ∧
    ScalarEffect (.slog 5 d a b) (fun x => wr x d (~~~(sreg x.s a ^^^ word x.s b))) ∧
    ScalarEffect (.slog 6 d a (.reg 0)) (fun x => wr x d (~~~(sreg x.s a))) ∧
    ScalarEffect (.sshf 0 d a b) (fun x => wr x d (sreg x.s a <<< ((word x.s b).toNat % 32))) ∧
    ScalarEffect (.sshf 1 d a b) (fun x => wr x d (sreg x.s a >>> ((word x.s b).toNat % 32))) ∧
    ScalarEffect (.sshf 2 d a b) (fun x => wr x d ((sreg x.s a).sshiftRight ((word x.s b).toNat % 32))) ∧
    ScalarEffect (.sshf 3 d a b) (fun x => wr x d ((sreg x.s a).rotateLeft ((word x.s b).toNat % 32))) ∧
    ScalarEffect (.sshf 4 d a b) (fun x => wr x d ((sreg x.s a).rotateRight ((word x.s b).toNat % 32))) ∧
    ScalarEffect (.smin false d a b) (fun x => wr x d (if (sreg x.s a).slt (word x.s b) then sreg x.s a else word x.s b)) ∧
    ScalarEffect (.smin true d a b) (fun x => wr x d (if (sreg x.s a).ult (word x.s b) then sreg x.s a else word x.s b)) ∧
    ScalarEffect (.smax false d a b) (fun x => wr x d (if (sreg x.s a).slt (word x.s b) then word x.s b else sreg x.s a)) ∧
    ScalarEffect (.smax true d a b) (fun x => wr x d (if (sreg x.s a).ult (word x.s b) then word x.s b else sreg x.s a)) ∧
    (∀ (f : BitVec 3) (u : Bool), ScalarEffect (.scmp f u q a b)
      (fun x => x.setQ q.toNat (compares f.toNat (intOf (!u) (sreg x.s a)) (intOf (!u) (word x.s b))))) ∧
    ScalarEffect (.smov d b) (fun x => wr x d (word x.s b)) ∧
    ScalarEffect (.ssel q d a b) (fun x => wr x d (if x.q.getLsbD q.toNat then sreg x.s a else word x.s b)) ∧
    ScalarEffect (.simm d imm) (fun x => wr x d imm) ∧
    ScalarEffect (.scnt 0 d a) (fun x => wr x d (BitVec.ofNat 32 (ones (sreg x.s a)))) ∧
    ScalarEffect (.scnt 1 d a) (fun x => wr x d (sreg x.s a).clz) ∧
    ScalarEffect (.scnt 2 d a) (fun x => wr x d (sreg x.s a).ctz)

/-- 05 R141, Table 5-7; 06 R160 to R164, Table 6-2: the results of every scalar instruction in every form: the parts above. -/
def Obligations.ScalarResults : Prop := ScalarSumsAndDifferences ∧ ScalarProductsAndQuotients ∧ ScalarLogicShiftsAndMoves

/-- 06 R168, Table 6-3; 05 R126, R141, Table 5-7: VADD, VSUB, VMUL, VMAD and VDIV in their F3 and FX forms: each active
lane takes the exact result reduced to the type, every other lane and register keeps its value. -/
def Obligations.VectorIntegerArithmetic : Prop :=
  ∀ (d : VReg) (a b : VSrc) (k : CSrc) (ty : BitVec 4) (sat : Bool),
    Lanewise (.vadd d a b) false d (fun w l => (lane32 w a l + lane32 w b l).toNat) noFlag ∧
    Lanewise (.vsub d a b) false d (fun w l => (lane32 w a l - lane32 w b l).toNat) noFlag ∧
    Lanewise (.vmul d a b) false d (fun w l => (lane32 w a l * lane32 w b l).toNat) noFlag ∧
    Lanewise (.vdiv d a b) false d (fun w l => (quot true (lane32 w a l) (lane32 w b l)).toNat)
      (fun w l => if lane32 w b l = 0 then 2 else 0) ∧
    Lanewise (.vaddFx d a b ty sat) (wide2 ty) d (fun w l => holdV ty (satV sat ty (numV ty w a l + numV ty w b l))) noFlag ∧
    Lanewise (.vsubFx d a b ty sat) (wide2 ty) d (fun w l => holdV ty (satV sat ty (numV ty w a l - numV ty w b l))) noFlag ∧
    Lanewise (.vmulFx false d a b ty sat) (wide2 ty) d (fun w l => holdV ty (satV sat ty (numV ty w a l * numV ty w b l))) noFlag ∧
    Lanewise (.vmulFx true d a b ty sat) (wide2 ty) d
      (fun w l => holdV ty (numV ty w a l * numV ty w b l / 2 ^ tyBits ty.toNat)) noFlag ∧
    Lanewise (.vmad false d a b k ty sat) (wide2 ty) d
      (fun w l => holdV ty (satV sat ty (numV ty w a l * numV ty w b l + numV ty w (asSrc k) l))) noFlag ∧
    Lanewise (.vmad true d a b k ty sat) (wide2 ty) d
      (fun w l => holdV ty ((numV ty w a l * numV ty w b l + numV ty w (asSrc k) l) / 2 ^ tyBits ty.toNat)) noFlag ∧
    Lanewise (.vdivFx false d a b ty) (wide2 ty) d
      (fun w l => if numV ty w b l = 0 then holdV ty (-1) else holdV ty (Int.tdiv (numV ty w a l) (numV ty w b l)))
      (fun w l => if numV ty w b l = 0 then 2 else 0) ∧
    Lanewise (.vdivFx true d a b ty) (wide2 ty) d
      (fun w l => if numV ty w b l = 0 then holdV ty (numV ty w a l) else holdV ty (Int.tmod (numV ty w a l) (numV ty w b l)))
      (fun w l => if numV ty w b l = 0 then 2 else 0)

/-- 06 R168, R170 to R172: VLOG, VSHF, VMIN, VMAX, VSEL, VMOV, VIMM, VCNT, VBFX and VBFI. -/
def Obligations.VectorLogicSelectsAndFields : Prop :=
  ∀ (d : VReg) (a b : VSrc) (ty : BitVec 4),
    Lanewise (.vlog d a b) false d (fun w l => (lane32 w a l &&& lane32 w b l).toNat) noFlag ∧
    Lanewise (.vshf d a b) false d (fun w l => (lane32 w a l <<< ((lane32 w b l).toNat % 32)).toNat) noFlag ∧
    (∀ f : BitVec 3, Lanewise (.vlogFx f d a b ty) (wide2 ty) d (fun w l =>
      let x := bitsV ty w a l
      let y := bitsV ty w b l
      holdV ty (BitVec.toInt (match f.toNat with
        | 0 => x &&& y
        | 1 => x ||| y
        | 2 => x ^^^ y
        | 3 => x &&& ~~~y
        | 4 => x ||| ~~~y
        | 5 => ~~~(x ^^^ y)
        | _ => ~~~x))) noFlag) ∧
    (∀ f : BitVec 3, Lanewise (.vshfFx f d a b ty) (wide2 ty) d (fun w l =>
      let x := bitsV ty w a l
      let k := (bitsV ty w b l).toNat % tyBits ty.toNat
      holdV ty (BitVec.toInt (match f.toNat with
        | 0 => x <<< k
        | 1 => x >>> k
        | 2 => x.sshiftRight k
        | 3 => x.rotateLeft k
        | _ => x.rotateRight k))) noFlag) ∧
    Lanewise (.vmin d a b ty) (wide2 ty) d (fun w l => holdV ty (min (numV ty w a l) (numV ty w b l))) noFlag ∧
    Lanewise (.vmax d a b ty) (wide2 ty) d (fun w l => holdV ty (max (numV ty w a l) (numV ty w b l))) noFlag ∧
    (∀ (p : BitVec 3) (n z : Bool), Lanewise (.vsel p n z d a b false) false d (fun w l =>
      if (w.predN p.toNat n).getLsbD l then (lane32 w a l).toNat else if z then 0 else (lane32 w b l).toNat) noFlag) ∧
    (∀ (p : BitVec 3) (n z : Bool), Lanewise (.vsel p n z d a b true) true d (fun w l =>
      if (w.predN p.toNat n).getLsbD l then (lane64 w a l).toNat else if z then 0 else (lane64 w b l).toNat) noFlag) ∧
    Lanewise (.vmov d a) false d (fun w l => (lane32 w a l).toNat) noFlag ∧
    (∀ imm : Word, Lanewise (.vimm d imm) false d (fun _ _ => imm.toNat) noFlag) ∧
    Lanewise (.vcnt false d a ty) false d (fun w l => ones (bitsV ty w a l)) noFlag ∧
    Lanewise (.vcnt true d a ty) false d (fun w l => (bitsV ty w a l).clz.toNat) noFlag ∧
    (∀ (pos : BitVec 5) (len : BitVec 6), pos.toNat + len.toNat ≤ 32 →
      Lanewise (.vbfx d a 2 pos len) false d
        (fun w l => (((lane32 w a l).extractLsb' pos.toNat len.toNat).signExtend 32).toNat) noFlag ∧
      Lanewise (.vbfx d a 6 pos len) false d (fun w l => ((lane32 w a l).extractLsb' pos.toNat len.toNat).toNat) noFlag ∧
      Lanewise (.vbfi d a b ty pos len) false d (fun w l =>
        let m : Word := BitVec.ofNat 32 ((2 ^ len.toNat - 1) * 2 ^ pos.toNat)
        ((lane32 w b l &&& ~~~m) ||| ((lane32 w a l <<< pos.toNat) &&& m)).toNat) noFlag)

/-- 06 R169, R173 to R175, R167: VCMP, VVOTE, VSHUF, VSCAN, VRED and SRDL. A scan or reduction combines the active lanes in
ascending lane id; a shuffle takes a value from an active lane alone. -/
def Obligations.LaneCrossingResults : Prop :=
  (∀ (f p : BitVec 3) (a b : VSrc) (ty : BitVec 4),
    Compares (.vcmp f p a b ty) p (fun w l => compares f.toNat (numV ty w a l) (numV ty w b l)) noFlag) ∧
  (∀ (d : SReg) (p : BitVec 3) (n : Bool),
    WarpEffect (.vvote 0 d p n) (fun c w => { w with s := rset w.s d.toNat (if (w.predN p.toNat n &&& c.act) ≠ 0 then (1 : Word) else 0) }) ∧
    WarpEffect (.vvote 1 d p n) (fun c w => { w with s := rset w.s d.toNat (if (w.predN p.toNat n &&& c.act) = c.act then (1 : Word) else 0) }) ∧
    WarpEffect (.vvote 2 d p n) (fun c w =>
      let t := w.predN p.toNat n &&& c.act
      let put := fun (r : Regs) (i : Nat) => rset r (d.toNat + i) (t.extractLsb' (32 * i) 32)
      { w with s := (List.range (max 1 (w.width / 32))).foldl put w.s })) ∧
  (∀ (f : BitVec 2) (d : VReg) (a b : VSrc) (ty : BitVec 4),
    WarpEffect (.vshuf f d a b ty) (fun c w => w.putLanes (wide2 ty) d.toNat (lanesOf c.act) (fun l =>
      let x := (lane32 w b l).toNat
      let j : Int := match f.toNat with
        | 0 => x
        | 1 => (l : Int) - x
        | 2 => (l : Int) + x
        | _ => ((l ^^^ x : Nat) : Int)
      let k := if 0 ≤ j ∧ j < w.width ∧ c.act.getLsbD j.toNat = true then j.toNat else l
      if wide2 ty then (lane64 w a k).toNat else (lane32 w a k).toNat))) ∧
  (∀ (op : BitVec 3) (d a : VReg) (ra : Bool) (ty : BitVec 4) (sat : Bool),
    WarpEffect (.vscan op d a ra ty sat false) (fun c w => w.putLanes (wide2 ty) d.toNat (lanesOf c.act) fun l =>
      holdV ty (scanOf op.toNat sat ty w (.vec a ra) ((lanesOf c.act).filter fun k => decide (k ≤ l)))) ∧
    WarpEffect (.vscan op d a ra ty sat true) (fun c w => w.putLanes (wide2 ty) d.toNat (lanesOf c.act) fun l =>
      holdV ty (scanOf op.toNat sat ty w (.vec a ra) ((lanesOf c.act).filter fun k => decide (k < l)))) ∧
    WarpEffect (.vred op d a ra ty sat) (fun c w => w.putLanes (wide2 ty) d.toNat (lanesOf c.act) fun _ =>
      holdV ty (scanOf op.toNat sat ty w (.vec a ra) (lanesOf c.act)))) ∧
  (∀ (d : SReg) (a : VReg) (ra : Bool),
    WarpEffect (.srdl d a ra) (fun c w => { w with s := rset w.s d.toNat (w.vget a.toNat ((lanesOf c.act).headD 0)) }))

namespace Sys2Proof.Cert

open Host Sys2Proof.Machine

/-! ### Float operands -/

/-- The encoding of a class 3 source of a TYPE in a lane, and its value. -/
def encV (ty : BitVec 4) (w : Warp) (v : VSrc) (l : Nat) : Nat := if ty = 3 then (lane64 w v l).toNat else (lane32 w v l).toNat
def floatV (ty : BitVec 4) (w : Warp) (v : VSrc) (l : Nat) : FVal := fdecode (fmtOf (ty.toNat + 8)) (encV ty w v l)

/-- A float instruction of a TYPE: result and flags of each lane come from one function of the warp and the lane. -/
def FloatLanes (i : Instr) (ty : BitVec 4) (d : VReg) (r : Warp → Nat → Nat × Nat) : Prop :=
  Lanewise i (ty == 3) d (fun w l => (r w l).1) (fun w l => (r w l).2)

/-- The rounding mode of a code, with the dither of a lane for code 4 (05 R134, R135). -/
def modeV (rm : BitVec 3) (seed : SReg) (w : Warp) (l : Nat) : RMode :=
  if rm = 4 then .rs (srDither (rget w.s seed.toNat).toNat l)
  else if rm = 0 then .rn else if rm = 1 then .rz else if rm = 2 then .rp else .rm

end Sys2Proof.Cert

open Host Sys2Proof Sys2Proof.Machine Sys2Proof.Cert

/-- 05 R134: rounding m × 2^e (e below q) to a multiple n × 2^q: n is the lower neighbour or the next one; a multiple stays;
.rz takes the lower magnitude, .rp the higher value, .rm the lower value, .rn the nearer one and the even one of a tie. -/
def Sys2Proof.Cert.RoundingModesPickTheirNeighbour : Prop :=
  ∀ (neg : Bool) (m : Nat) (e q : Int) (k : Nat), q = e + k →
    let lo := m / 2 ^ k
    let r := m % 2 ^ k
    (∀ mode, r = 0 → roundAt mode neg m e false q = (lo, false)) ∧
    (∀ mode, r ≠ 0 → (roundAt mode neg m e false q).2 = true ∧
      ((roundAt mode neg m e false q).1 = lo ∨ (roundAt mode neg m e false q).1 = lo + 1)) ∧
    (r ≠ 0 → (roundAt .rz neg m e false q).1 = lo ∧
      (roundAt .rp neg m e false q).1 = (if neg then lo else lo + 1) ∧
      (roundAt .rm neg m e false q).1 = (if neg then lo + 1 else lo) ∧
      (2 * r < 2 ^ k → (roundAt .rn neg m e false q).1 = lo) ∧
      (2 * r > 2 ^ k → (roundAt .rn neg m e false q).1 = lo + 1) ∧
      (2 * r = 2 ^ k → (roundAt .rn neg m e false q).1 % 2 = 0))

/-- 05 R127 to R129, R134: in every format of type codes 8 to 14, the value of a finite encoding rounds to that encoding
in every mode, with no flag. -/
def Sys2Proof.Cert.ExactValuesKeepTheirEncoding : Prop :=
  ∀ (code x : Nat) (mode : RMode) (neg : Bool) (m : Nat) (e : Int), 8 ≤ code → code ≤ 14 → x < 2 ^ (fmtOf code).bits →
    fdecode (fmtOf code) x = .fin neg m e → fround (fmtOf code) mode neg m e = (x, 0)

/-- 05 R127, 05 R128, 05 R129, 05 R134: every rounding mode picks its neighbour, and every finite encoding keeps its value in every mode: the parts above. -/
def Obligations.FormatsRoundAndKeepValues : Prop := RoundingModesPickTheirNeighbour ∧ ExactValuesKeepTheirEncoding

/-- 06 R177, R178, R183; 04 R104: the float sums, products, fused products, reciprocals, exponentials, logarithms, dot
products and scalings, F3 form (.f32, .rn) and FX form: each active lane takes the rounded result and ORs its flags. -/
def Obligations.VectorFloatArithmetic : Prop :=
  ∀ (d : VReg) (a b : VSrc) (k : CSrc) (ty : BitVec 4) (rm : BitVec 3),
    let f := fmtOf (ty.toNat + 8)
    let md := rmodeOf rm.toNat
    FloatLanes (.vfadd d a b) 2 d (fun w l => faddV (fmtOf 10) .rn (floatV 2 w a l) (floatV 2 w b l)) ∧
    FloatLanes (.vfmul d a b) 2 d (fun w l => fmulR (fmtOf 10) .rn (floatV 2 w a l) (floatV 2 w b l)) ∧
    FloatLanes (.vfaddFx false d a b ty rm) ty d (fun w l => faddV f md (floatV ty w a l) (floatV ty w b l)) ∧
    FloatLanes (.vfaddFx true d a b ty rm) ty d (fun w l => faddV f md (floatV ty w a l) (fnegV (floatV ty w b l))) ∧
    FloatLanes (.vfmulFx d a b ty rm) ty d (fun w l => fmulR f md (floatV ty w a l) (floatV ty w b l)) ∧
    FloatLanes (.vfma false d a b k ty rm) ty d
      (fun w l => ffmaR f md (floatV ty w a l) (floatV ty w b l) (floatV ty w (asSrc k) l)) ∧
    FloatLanes (.vfma true d a b k ty rm) ty d
      (fun w l => ffmaR f md (floatV ty w a l) (floatV ty w b l) (fnegV (floatV ty w (asSrc k) l))) ∧
    FloatLanes (.vrcp d a) 2 d (fun w l => funary 0 (fmtOf 10) .rn (floatV 2 w a l)) ∧
    FloatLanes (.vrsq d a) 2 d (fun w l => funary 1 (fmtOf 10) .rn (floatV 2 w a l)) ∧
    FloatLanes (.vexp2 d a) 2 d (fun w l => funary 2 (fmtOf 10) .rn (floatV 2 w a l)) ∧
    FloatLanes (.vlog2 d a) 2 d (fun w l => funary 3 (fmtOf 10) .rn (floatV 2 w a l)) ∧
    FloatLanes (.vrcpFx d a ty rm) ty d (fun w l => funary 0 f md (floatV ty w a l)) ∧
    FloatLanes (.vrsqFx d a ty rm) ty d (fun w l => funary 1 f md (floatV ty w a l)) ∧
    FloatLanes (.vexp2Fx d a ty rm) ty d (fun w l => funary 2 f md (floatV ty w a l)) ∧
    FloatLanes (.vlog2Fx d a ty rm) ty d (fun w l => funary 3 f md (floatV ty w a l)) ∧
    FloatLanes (.vscl d a b ty rm) ty d (fun w l => fscale f md (floatV ty w a l) ((lane32 w b l).toNat % 256)) ∧
    Lanewise (.vdot d a b k ty rm) false d (fun w l => (fdot md
        (dotElems ty.toNat (if ty = 0 ∨ ty = 1 then (lane64 w a l).toNat else (lane32 w a l).toNat))
        (dotElems ty.toNat (if ty = 0 ∨ ty = 1 then (lane64 w b l).toNat else (lane32 w b l).toNat))
        (fdecode (fmtOf 10) (lane32 w (asSrc k) l).toNat)).1)
      (fun w l => (fdot md
        (dotElems ty.toNat (if ty = 0 ∨ ty = 1 then (lane64 w a l).toNat else (lane32 w a l).toNat))
        (dotElems ty.toNat (if ty = 0 ∨ ty = 1 then (lane64 w b l).toNat else (lane32 w b l).toNat))
        (fdecode (fmtOf 10) (lane32 w (asSrc k) l).toNat)).2)

/-- 06 R179 to R182: VSINCOS, which traps with ILLEGAL_OPERAND when its destinations are one register, VFMIN, VFMAX, VFCMP and
VFCLS. -/
def Obligations.VectorFloatComparisonsAndClasses : Prop :=
  (∀ (d c : VReg) (a : VSrc) (ty : BitVec 4) (rm : BitVec 3), d ≠ c →
    WarpEffect (.vsincos d c a ty rm) (fun p w =>
      let g := fun l => fsincosV (fmtOf (ty.toNat + 8)) (rmodeOf rm.toNat) (floatV ty w a l)
      ((w.putLanes false d.toNat (lanesOf p.act) fun l => (g l).1.1).putLanes false c.toNat (lanesOf p.act) fun l => (g l).2.1).flag
        (flagsOf (lanesOf p.act) fun l => (g l).1.2 ||| (g l).2.2))) ∧
  (∀ (d : VReg) (a : VSrc) (ty : BitVec 4) (rm : BitVec 3) s wk w p, Runs (.vsincos d d a ty rm) s wk w p →
    exec (.vsincos d d a ty rm) s = .next (s.trapCur 2 p.act)) ∧
  (∀ (d : VReg) (a b : VSrc) (ty : BitVec 4),
    let f := fmtOf (ty.toNat + 8)
    FloatLanes (.vfmin d a b ty) ty d (fun w l => fminmax f false (encV ty w a l % 2 ^ f.bits) (encV ty w b l % 2 ^ f.bits)) ∧
    FloatLanes (.vfmax d a b ty) ty d (fun w l => fminmax f true (encV ty w a l % 2 ^ f.bits) (encV ty w b l % 2 ^ f.bits)) ∧
    Lanewise (.vfcls d a ty) false d (fun w l => fclass f (encV ty w a l % 2 ^ f.bits)) noFlag) ∧
  (∀ (fn p : BitVec 3) (a b : VSrc) (ty : BitVec 4),
    Compares (.vfcmp fn p a b ty) p (fun w l => (fcmp fn.toNat (floatV ty w a l) (floatV ty w b l)).1)
      (fun w l => (fcmp fn.toNat (floatV ty w a l) (floatV ty w b l)).2))

/-- 06 R184, R185; 05 R135, R139, R140: VFCVT between types, with the dither of its lane under .rs, and its packing and
unpacking of the granules whose lanes are all active; narrow signed results are sign-extended (05 R126). A pack or unpack of a
warp with a granule that some but not all of whose lanes are active traps with ILLEGAL_OPERAND. -/
def Obligations.FloatConversions : Prop :=
  (∀ (d a : VReg) (ra : Bool) (dst src : BitVec 5) (rm : BitVec 3) (seed : SReg) (sat : Bool),
    let r := fun (w : Warp) (l : Nat) => fcvt dst.toNat src.toNat (modeV rm seed w l) sat
      (if typeBits src.toNat = 64 then (lane64 w (.vec a ra) l).toNat else (lane32 w (.vec a ra) l).toNat)
    Lanewise (.vfcvt d a ra dst src rm seed sat) (typeBits dst.toNat == 64) d
      (fun w l => if dst.toNat < 8 then holdV (dst.setWidth 4) (r w l).1 else (r w l).1) (fun w l => (r w l).2)) ∧
  (∀ (d a : VReg) (ra : Bool) (dst : BitVec 5) (rm : BitVec 3) (seed : SReg) (sat : Bool) s wk w c,
    let i := Instr.vfcvtPack d a ra dst rm seed sat
    let n := granLanes dst.toNat
    Runs i s wk w c → (granules dst.toNat w.width c.act).2 = false →
    exec i s = goesOn s wk ((granules dst.toNat w.width c.act).1.foldl (fun x g =>
      let p := packGranule dst.toNat rm.toNat sat (rget w.s seed.toNat).toNat g
        ((List.range 24).map fun j => (w.vget (a.toNat + j / n) (g * n + j % n)).toNat)
      (List.range n).foldl (fun x i => x.vset d.toNat (g * n + i) (BitVec.ofNat 32 ((granWords dst.toNat p.1 p.2.1).getD i 0)))
        (x.flag p.2.2)) w) c) ∧
  (∀ (d a : VReg) (ra : Bool) (src : BitVec 5) (rm : BitVec 3) (sat : Bool) s wk w c,
    let i := Instr.vfcvtUnpack d a ra src rm sat
    let n := granLanes src.toNat
    let b := sxBits src.toNat
    Runs i s wk w c → (granules src.toNat w.width c.act).2 = false →
    exec i s = goesOn s wk ((granules src.toNat w.width c.act).1.foldl (fun x g =>
      let bits := packFields ((granRange src.toNat g).map fun l => ((w.vget a.toNat l).toNat, 32))
      let p := unpackGranule src.toNat rm.toNat sat (bitsOf bits (24 * b) 8) ((List.range 24).map fun j => bitsOf bits (b * j) b)
      (List.range 24).foldl (fun x j => x.vset (d.toNat + j / n) (g * n + j % n) (BitVec.ofNat 32 (p.1.getD j 0)))
        (x.flag p.2)) w) c) ∧
  (∀ (d a : VReg) (ra : Bool) (code : BitVec 5) (rm : BitVec 3) (seed : SReg) (sat : Bool) s wk w c g l m,
    let n := granLanes code.toNat
    g < w.width / n → l < n → m < n → c.act.getLsbD (g * n + l) = true → c.act.getLsbD (g * n + m) = false →
    (Runs (.vfcvtPack d a ra code rm seed sat) s wk w c → exec (.vfcvtPack d a ra code rm seed sat) s = .next (s.trapCur 2 c.act)) ∧
    (Runs (.vfcvtUnpack d a ra code rm sat) s wk w c → exec (.vfcvtUnpack d a ra code rm sat) s = .next (s.trapCur 2 c.act)))

namespace Sys2Proof.Cert

open Host Sys2Proof.Machine

/-- The destination of an FB branch, exactly: the clause header plus four times its signed offset (04 R107; 06 R150). -/
def target {n : Nat} (c : ClausePos) (off : BitVec n) : Int := c.hdr + 4 * off.toInt

/-- The destination is an offset of code. -/
def leads {n : Nat} (c : ClausePos) (off : BitVec n) (t : Nat) : Prop := target c off = t ∧ t < 2 ^ 32

/-- It is none (log 87). -/
def strays {n : Nat} (c : ClausePos) (off : BitVec n) : Prop := target c off < 0 ∨ 2 ^ 32 ≤ target c off

/-- The issuing warp's lanes of a mask go to destinations and the rest of its clause falls through; nothing else changes. -/
def branches (s : State) (wk : Nat) (w : Warp) (c : ClausePos) (go : Lanes) (dest : Nat → Nat) : Res :=
  .next (s.setWarp wk (w.branch c go dest))

/-- Canonical form of a register file. -/
def regsWf (r : Regs) : Bool := swf (0 : Word) r

end Sys2Proof.Cert

open Host Sys2Proof Sys2Proof.Machine Sys2Proof.Cert

/-- 06 R150, R151; 04 R94, R95, R107: BRA, BRC, BRV, CALL, RET and JMPI whose destinations pass their check: the lanes that
take the branch go to their destination, the other lanes of the clause to the next header position; CALL writes the return
address to LINK in its active lanes, the next header position past filler at the start of a line. A destination that is no offset of
code is no clause header, and traps with BRANCH_TARGET (log 87, DEDUCED); so does that of a CALL that is not a multiple of 128, before its
fetch can fail (log 88, DESIGN CHOICE). -/
def Obligations.BranchesMoveTheirLanes : Prop :=
  (∀ (off : BitVec 25) s wk w c t, Runs (.bra off) s wk w c → leads c off t → s.checkTargets w [t] = .ok →
    exec (.bra off) s = branches s wk w c c.act fun _ => t) ∧
  (∀ (p : BitVec 3) (n : Bool) (off : BitVec 21) s wk w c t, Runs (.brc p n off) s wk w c → leads c off t → s.checkTargets w [t] = .ok →
    exec (.brc p n off) s = branches s wk w c (w.predN p.toNat n) fun _ => t) ∧
  (∀ (p : BitVec 3) (n all : Bool) (off : BitVec 20) s wk w c t, Runs (.brv p n all off) s wk w c → leads c off t →
    s.checkTargets w [t] = .ok →
    exec (.brv p n all off) s = branches s wk w c
      (let held := w.predN p.toNat n &&& c.act
       if (if all then held == c.act else held != 0) then c.act else 0) fun _ => t) ∧
  (∀ (link : VReg) (off : BitVec 18) s wk w c t, Runs (.call link off) s wk w c → leads c off t → t % 128 = 0 →
    s.checkTargets w [t] = .ok → ∀ l, s.linkFrom w codeLines c.nexth = .inr l →
    exec (.call link off) s =
      branches s wk (w.putLanes false link.toNat (lanesOf c.act) fun _ => l) c c.act fun _ => t) ∧
  (∀ (o1 : BitVec 25) (o2 : BitVec 21) (o3 : BitVec 20) (o4 : BitVec 18) (p : BitVec 3) (n all : Bool) (link : VReg) s wk w c,
    (Runs (.bra o1) s wk w c → strays c o1 → exec (.bra o1) s = .next (s.trapCur 7 c.act)) ∧
    (Runs (.brc p n o2) s wk w c → strays c o2 → exec (.brc p n o2) s = .next (s.trapCur 7 c.act)) ∧
    (Runs (.brv p n all o3) s wk w c → strays c o3 → exec (.brv p n all o3) s = .next (s.trapCur 7 c.act)) ∧
    (Runs (.call link o4) s wk w c → strays c o4 → exec (.call link o4) s = .next (s.trapCur 7 c.act))) ∧
  (∀ (s : State) (w : Warp) (n off : Nat),
    (off % 128 ≠ 0 → s.linkFrom w (n + 1) off = .inr off) ∧
    (∀ line, s.fetchLine w off = .ok line → line 0 ≠ 0 → s.linkFrom w (n + 1) off = .inr off) ∧
    (∀ line, off % 128 = 0 → s.fetchLine w off = .ok line → line 0 = 0 →
      s.linkFrom w (n + 1) off = s.linkFrom w n (off + 128))) ∧
  (∀ (link : VReg) (off : BitVec 18) s wk w c t, Runs (.call link off) s wk w c → leads c off t → t % 128 ≠ 0 →
    exec (.call link off) s = .next (s.trapCur 7 c.act)) ∧
  (∀ (a : VReg) (ra : Bool) s wk w c, Runs (.ret a ra) s wk w c →
    s.checkTargets w (sortNat ((lanesOf c.act).map fun l => (w.vget a.toNat l).toNat)) = .ok →
    exec (.ret a ra) s = branches s wk w c c.act fun l => (w.vget a.toNat l).toNat) ∧
  (∀ (a : VReg) (ra : Bool) s wk w c, Runs (.jmpi a ra) s wk w c →
    s.checkTargets w (sortNat ((lanesOf c.act).map fun l => (w.vget a.toNat l).toNat)) = .ok →
    exec (.jmpi a ra) s = branches s wk w c c.act fun l => (w.vget a.toNat l).toNat)

/-- 06 R165: SJMP in a warp and on a mending core: FN 0 and 1 test a q bit, FN 2 always goes, FN 3 writes the next header
position (past filler), FN 4 takes its destination from a register; a destination that fails its check traps with BRANCH_TARGET
and writes nothing. On a mending core the next header position past filler is the first line that begins with another word (04 R95). -/
def Obligations.ScalarJumps : Prop :=
  (∀ (x : Mend) (off n : Nat), x.code.wf = true →
    (off % 128 ≠ 0 → x.linkFrom off = off) ∧
    (off % 128 = 0 → (∀ k, k < n → x.line (off + 128 * k) 0 = 0) → x.line (off + 128 * n) 0 ≠ 0 → x.linkFrom off = off + 128 * n)) ∧
  ∀ (f : BitVec 3) (d a : SReg) (imm : Word),
    let go := fun (q : BitVec 4) => if f = 0 then q.getLsbD (d.toNat % 4) else if f = 1 then !q.getLsbD (d.toNat % 4) else true
    let tgt := fun (r : Regs) => if f = 4 then (rget r a.toNat).toNat else imm.toNat
    let link := fun (r : Regs) (l : Nat) => if f = 3 then rset r d.toNat (BitVec.ofNat 32 l) else r
    (∀ s wk w c l, Runs (.sjmp f d a imm) s wk w c → s.checkTargets w [tgt w.s] = .ok →
      (f = 3 → s.linkFrom w codeLines c.nexth = .inr l) →
      exec (.sjmp f d a imm) s = branches s wk { w with s := link w.s l } c (if go w.q then c.act else 0) fun _ => tgt w.s) ∧
    (∀ s wk w c, Runs (.sjmp f d a imm) s wk w c → s.checkTargets w [tgt w.s] = .bad →
      exec (.sjmp f d a imm) s = .next (s.trapCur 7 c.act)) ∧
    (∀ s m x c, MendRuns (.sjmp f d a imm) s m x c → x.targetOk (tgt x.s) = true →
      exec (.sjmp f d a imm) s = .next (s.setMend m { x with
        s := link x.s (x.linkFrom c.nexth), clause := none, pc := if go x.q then tgt x.s else c.nexth })) ∧
    (∀ s m x c, MendRuns (.sjmp f d a imm) s m x c → x.targetOk (tgt x.s) = false →
      exec (.sjmp f d a imm) s = .next (s.trapCur 7))

/-- 02 R28, R30; 06 R150: after a branch each lane that took it stands at its destination, each other live lane that
stood at the clause when it was met stands at the next header position, and every other lane keeps its pc; the clause is
over. -/
def Obligations.BranchedLanesStandWhereTheyWent : Prop :=
  ∀ (w : Warp) (c : ClausePos) (go : Lanes) (dest : Nat → Nat) (l : Nat), regsWf w.pcs = true → l < 128 →
    (∀ k, dest k < 2 ^ 32) → c.nexth < 2 ^ 32 →
    let w' := w.branch c go dest
    regsWf w'.pcs = true ∧ w'.clause = none ∧ w'.live = w.live ∧ w'.v = w.v ∧ w'.s = w.s ∧
    w'.pcOf l = (if (go &&& c.act).getLsbD l then dest l
      else if (c.here &&& w.live).getLsbD l = true then c.nexth else w.pcOf l)

/-- 06 R152, R153; 02 R32, R33: EXIT takes the active lanes that hold the predicate out of the warp, ends the clause once no
active lane is left, and lets the warp retire; RCW parks the active lanes in the warp's open wait, which it opens when
there is none, and which ends when every live lane has arrived; another RCW than the open one traps. -/
def Obligations.ExitAndReconvergence : Prop :=
  (∀ (p : BitVec 3) (n : Bool) s wk w c, Runs (.exit p n) s wk w c →
    let out := w.predN p.toNat n &&& c.act
    let w1 := { w with live := w.live &&& ~~~out }
    let w2 := Warp.rcwCheck (if c.act &&& ~~~out = 0 then w1.endClause c else w1.advance { c with act := c.act &&& ~~~out } s.insnLen)
    exec (.exit p n) s = .next ((s.setWarp wk (s.lastExit wk w2)).tryRetire wk)) ∧
  (∀ (s : State) (wk : Nat) (w : Warp), w.live ≠ 0 → kget s.warps wk = some w → s.tryRetire wk = s ∧ s.lastExit wk w = w) ∧
  (∀ (q : BitVec 2) (bound : BitVec 16) s wk w c, Runs (.rcw q bound) s wk w c →
    let r := w.rcw.getD { addr := s.ctl.insn.pc, q := q.toNat, bound := bound.toNat, base := 0,
                          since := (s.core (wkCore wk)).cycles, lanes := 0 }
    let w1 := { w with rcw := some { r with lanes := r.lanes ||| c.act } }
    (r.addr = s.ctl.insn.pc → exec (.rcw q bound) s =
      .next (s.setWarp wk (w1.branch c c.act fun _ => c.nexth).rcwCheck)) ∧
    (r.addr ≠ s.ctl.insn.pc → exec (.rcw q bound) s = .next (s.trapCur 3 c.act))) ∧
  (∀ (w : Warp) (r : OpenRcw), w.rcw = some r →
    (w.live ≠ 0 ∧ w.live &&& ~~~r.lanes = 0 → (w.rcwCheck).rcw = none ∧ (w.rcwCheck).q = setq w.q r.q true) ∧
    (w.live &&& ~~~r.lanes ≠ 0 → w.rcwCheck = w))

/-- 02 R37; 06 R154: an arrival on a barrier marks the warp's bit, parks it (BARG) or not (BARA), and completes the barrier
when every expected warp has arrived: its count rises, the latched bit is set in the PEND of every warp of the group, those parked in its
BARG go on, and no other warp changes; a second arrival before that traps. -/
def Sys2Proof.Cert.BarriersGatherTheirWarps : Prop :=
  (∀ (b : BitVec 4) s wk w c g, Runs (.barg b) s wk w c → kget s.groups w.gk = some g →
    (g.bar b.toNat).arr &&& BitVec.ofNat 256 (2 ^ w.ix) = 0 → s.scrPending (.warp wk) = false →
    exec (.barg b) s = .next (((s.setWarp wk { w.advance c s.insnLen with park := .barg b.toNat }).modGroup w.gk fun g =>
      { g with bars := kset g.bars b.toNat { g.bar b.toNat with arr := (g.bar b.toNat).arr ||| BitVec.ofNat 256 (2 ^ w.ix) } }).tryBarrier
        w.gk b.toNat)) ∧
  (∀ (b : BitVec 4) s wk w c g, Runs (.bara b) s wk w c → kget s.groups w.gk = some g →
    (g.bar b.toNat).arr &&& BitVec.ofNat 256 (2 ^ w.ix) = 0 → s.scrPending (.warp wk) = false →
    exec (.bara b) s = .next (((s.setWarp wk (w.advance c s.insnLen)).modGroup w.gk fun g =>
      { g with bars := kset g.bars b.toNat { g.bar b.toNat with arr := (g.bar b.toNat).arr ||| BitVec.ofNat 256 (2 ^ w.ix) } }).tryBarrier
        w.gk b.toNat)) ∧
  (∀ (b : BitVec 4) s wk w c g, kget s.groups w.gk = some g → (g.bar b.toNat).arr &&& BitVec.ofNat 256 (2 ^ w.ix) ≠ 0 →
    (Runs (.barg b) s wk w c → exec (.barg b) s = .next (s.trapCur 2 c.act)) ∧
    (Runs (.bara b) s wk w c → exec (.bara b) s = .next (s.trapCur 2 c.act))) ∧
  (∀ (s : State) (gk b : Nat) (g : Group), kget s.groups gk = some g → (g.bar b).arr ≠ 0 → g.expected ≠ 0 →
    g.expected &&& (g.bar b).arr = g.expected →
    (kget (s.tryBarrier gk b).groups gk).map (fun g => g.bar b) = some { gen := (g.bar b).gen + 1, arr := 0 } ∧
    (∀ e ∈ g.wks, ∀ w, kget s.warps e.2 = some w → kget (s.tryBarrier gk b).warps e.2 =
      some { w with pend := w.pend ||| BitVec.ofNat 32 (2 ^ b), park := if w.park = .barg b then .none else w.park }) ∧
    (∀ k, (∀ e ∈ g.wks, e.2 ≠ k) → kget (s.tryBarrier gk b).warps k = kget s.warps k)) ∧
  (∀ (s : State) (gk b : Nat) (g : Group), kget s.groups gk = some g → g.expected &&& (g.bar b).arr ≠ g.expected →
    s.tryBarrier gk b = s)

/-- The condition of an event binding, by its kind (02 Table 2-7). -/
def Sys2Proof.Cert.bindingHolds (s : State) (w : Warp) (x elapsed : Nat) : Prop :=
  match ebKind x with
  | 1 => w.pend.getLsbD (ebSel x % 16) = true
  | 2 => w.sealed.length ≤ ebSel x
  | 3 => w.pend.getLsbD 16 = true
  | 4 => ebSel x % 2 ^ 18 ≤ (s.win (ebSel x / 2 ^ 18 % 64)).count.toNat
  | 5 => ebSel x ≤ elapsed
  | 6 => w.pend.getLsbD 17 = true
  | _ => False

/-- 02 R49, R52, R53; 06 R155 to R159: EBIND, EMASK, ECLR and YIELD; WANY resumes at the handler of the lowest selected
binding that holds, with its number in s0 and its value in s1, or parks the warp. A binding is selected when the mask names it, EMASK does
not suppress it and it is bound. -/
def Sys2Proof.Cert.EventsAndWaits : Prop :=
  (∀ (d : BitVec 3) (a b : SReg) s wk w c, Runs (.ebind d a b) s wk w c →
    let x : DWord := rget w.s a.toNat ++ rget w.s b.toNat
    (ebOk s w x.toNat = true → exec (.ebind d a b) s = goesOn s wk { w with eb := sset 0 w.eb d.toNat x } c) ∧
    (ebOk s w x.toNat = false → exec (.ebind d a b) s = .next (s.trapCur 2 c.act))) ∧
  (∀ (m : Byte) (d : SReg),
    WarpEffect (.emask 0 m d) (fun _ w => { w with emask := m.setWidth 32 }) ∧
    WarpEffect (.emask 1 m d) (fun _ w => { w with emask := w.emask ||| m.setWidth 32 }) ∧
    WarpEffect (.emask 2 m d) (fun _ w => { w with emask := w.emask &&& ~~~(m.setWidth 32) }) ∧
    WarpEffect (.emask 3 m d) (fun _ w => { w with s := rset w.s d.toNat w.emask })) ∧
  (∀ (d a : SReg),
    WarpEffect (.eclr false d a) (fun _ w => { w with pend := w.pend &&& ~~~(rget w.s a.toNat &&& 0x3FFFF) }) ∧
    WarpEffect (.eclr true d a) (fun _ w =>
      { w with pend := w.pend &&& ~~~(rget w.s a.toNat &&& 0x3FFFF), s := rset w.s d.toNat w.pend })) ∧
  WarpEffect .yield (fun _ w => { w with yield := true }) ∧
  (∀ (s : State) (wk : Nat) (w : Warp) (m : Byte) (e : Nat),
    let picked := fun (i : Nat) => i < 8 ∧ m.getLsbD i = true ∧ w.emask.getLsbD i = false ∧ ebKind (w.eb64 i) ≠ 0
    let holds := fun (i : Nat) => bindingHolds s w (w.eb64 i) e
    (∀ i, i ∈ w.selected m ↔ picked i) ∧
    (∀ i, s.wanySelect wk w m e = some i ↔ picked i ∧ holds i ∧ ∀ j, j < i → picked j → ¬ holds j) ∧
    (s.wanySelect wk w m e = none ↔ ∀ i, picked i → ¬ holds i)) ∧
  (∀ (m : Byte) s wk w c, Runs (.wany m) s wk w c →
    let stay := lanesOf (c.here &&& w.live &&& ~~~c.act)
    let w1 := if stay.isEmpty then w else w.fallTo stay c.nexth
    (w.selected m = [] → exec (.wany m) s = .next (s.trapCur 2 c.act)) ∧
    (w.selected m ≠ [] → s.wanySelect wk w m 0 = none → exec (.wany m) s =
      .next (s.setWarp wk { w1 with clause := none, swWait := c.sw,
                                    park := .wany m c.act 0 (s.core (wkCore wk)).cycles s.ctl.insn, won := none })) ∧
    (∀ i, s.wanySelect wk w m 0 = some i → s.checkTargets w [ebHandler (w.eb64 i)] = .ok → exec (.wany m) s =
      .next (s.setWarp wk { w1.consume (w1.eb64 i) with
        s := rset (rset w1.s 0 (BitVec.ofNat 32 i)) 1 (BitVec.ofNat 32 (s.ebValue wk w1 (w1.eb64 i) 0)),
        park := .none, clause := none, swWait := c.sw, won := none,
        pcs := setPcs w1.pcs (lanesOf (c.act &&& w1.live)) (ebHandler (w1.eb64 i)) })))

/-- 02 R37, 02 R49, 02 R52, 02 R53, 06 R154, 06 R155, 06 R156, 06 R157, 06 R158, 06 R159: arrivals on barriers, and EBIND, EMASK, ECLR, YIELD and WANY: the parts above. -/
def Obligations.BarriersEventsAndWaits : Prop := BarriersGatherTheirWarps ∧ EventsAndWaits

namespace Sys2Proof.Cert

open Host Sys2Proof.Machine

/-! ### Regrouping -/

/-- Traps that are taken together. -/
def trapsAll (s : State) (l : List (Nat × TrapInfo)) : Res := .next (s.together fun s => l.foldl (fun s x => s.takeTrap x.1 x.2) s)

/-- The warp that a recipient r becomes when it takes in a donor x with the registers a to b (02 R44): its own live lanes come first in
ascending order, with all they hold, then the donor's, with the moved registers and the predicates and zeros elsewhere; every live lane
stands at the next header position; the scalars, q bits, bindings, EMASK and scoreboard stay, and PEND and the flags are joined. -/
def FusedWarp (r x : Warp) (a b nexth : Nat) (y : Warp) : Prop :=
  let lr := lanesOf r.live
  let lx := lanesOf x.live
  (∀ k, k < 128 → y.live.getLsbD k = decide (k < lr.length + lx.length)) ∧
  (∀ k, k < lr.length + lx.length → y.pcOf k = nexth % 2 ^ 32) ∧
  (∀ k, k < lr.length → (∀ i, i < r.held → y.vget i k = r.vget i (lr.getD k 0)) ∧
    (∀ p, p < 7 → (pget y.p p).getLsbD k = (pget r.p p).getLsbD (lr.getD k 0))) ∧
  (∀ k, k < lx.length →
    (∀ i, i < r.held → y.vget i (lr.length + k) = if a ≤ i ∧ i ≤ b then x.vget i (lx.getD k 0) else 0) ∧
    (∀ p, p < 7 → (pget y.p p).getLsbD (lr.length + k) = (pget x.p p).getLsbD (lx.getD k 0))) ∧
  y.s = r.s ∧ y.q = r.q ∧ y.eb = r.eb ∧ y.emask = r.emask ∧ y.sb = r.sb ∧ y.aflags = r.aflags ||| x.aflags ∧
  y.pend &&& (r.pend ||| x.pend) = r.pend ||| x.pend ∧ y.park = .none ∧ y.clause = none

/-- What the fusion of warp dk into warp rk makes of a state: the recipient is as above, and counts the donor's unfinished batches; the
donor is gone, from its group and from the expected set of every barrier; its mailbox messages are the recipient's. -/
def Fused (s t : State) (rk dk : Nat) (r x : Warp) (a b nexth : Nat) : Prop :=
  (∃ y, kget t.warps rk = some y ∧ FusedWarp r x a b nexth y ∧
    y.sealed.length = r.sealed.length + x.sealed.length + (if s.batchOps dk x.batch = true then 1 else 0)) ∧
  kget t.warps dk = none ∧ t.mboxCount rk = s.mboxCount rk + s.mboxCount dk ∧
  (∃ g, kget t.groups r.gk = some g ∧ kget g.wks x.ix = none ∧ g.retired.getLsbD x.ix = true ∧ g.expected.getLsbD x.ix = false ∧
    ∀ n, (g.bar n).arr.getLsbD x.ix = false)

end Sys2Proof.Cert

open Host Sys2Proof Sys2Proof.Machine Sys2Proof.Cert

/-- 02 R43, 02 R44, 06 R176: REGRP completes: it parks a warp whose partner has not issued one that meets it, and fuses two warps that
have met: the warp of the lower index takes the other's live lanes after its own, and the other leaves its group. A partner that is no
other warp of the group, or a range that is empty, traps the issuer with ILLEGAL_OPERAND; a range outside the held blocks of one of the
two traps both with ILLEGAL_OPERAND; two warps that do not meet take ILLEGAL_CONVERGENCE, as does one that waits for a warp whose REGRP
names another. A lane that is parked in an open RCW counts as live here (log 100, DESIGN CHOICE), and a partner that has not
issued a REGRP is recorded at the issuer's (log 89). -/
def Obligations.RegroupingParksOrFuses : Prop :=
  (∀ (a b : VReg) (m : BitVec 7) s wk w c g d ok o, Runs (.regrp a b m) s wk w c →
    kget s.groups w.gk = some g → kget s.grids (gkGrid w.gk) = some d →
    let other := w.ix ^^^ m.toNat
    a.toNat ≤ b.toNat → m ≠ 0 → other < d.desc.warps → b.toNat < w.held → s.anyPending wk w.gk = false →
    (other < w.ix → s.warpEnts wk w.gk = []) → (∀ x ∈ s.regrpWaiters g w.ix, x.1 = other) →
    kget g.wks other = some ok → kget s.warps ok = some o → c.act = w.live →
    ((∀ m' a' b' n i, o.park ≠ .regrp m' a' b' n i) → exec (.regrp a b m) s =
      .next (s.setWarp wk { w with clause := none, park := .regrp m.toNat a.toNat b.toNat c.nexth s.ctl.insn })) ∧
    (∀ m' a' b' n i, o.park = .regrp m' a' b' n i → other ^^^ m' = w.ix → i.pc = s.ctl.insn.pc → o.width = w.width →
      (lanesOf w.live).length + (lanesOf o.live).length ≤ w.width → b.toNat < o.held → w.width ≤ 128 → wk ≠ ok →
      o.ix = other → o.gk = w.gk → other < 256 → w.ix < 256 → kget g.wks w.ix = some wk →
      ksorted s.warps = true → ksorted s.groups = true → ksorted s.cores = true → ksorted g.wks = true → ksorted g.bars = true →
      ∃ t, exec (.regrp a b m) s = .next t ∧ (w.ix < other → Fused s t wk ok w o a.toNat b.toNat c.nexth) ∧
        (other < w.ix → Fused s t ok wk o w a.toNat b.toNat c.nexth))) ∧
  (∀ (a b : VReg) (m : BitVec 7) s wk w c g d, Runs (.regrp a b m) s wk w c →
    kget s.groups w.gk = some g → kget s.grids (gkGrid w.gk) = some d →
    let other := w.ix ^^^ m.toNat
    let one := (wk, TrapInfo.plain 2 c.act s.ctl.insn)
    (m = 0 ∨ d.desc.warps ≤ other → exec (.regrp a b m) s = .next (s.trapCur 2 c.act)) ∧
    (m ≠ 0 → other < d.desc.warps → (∀ x ∈ s.regrpWaiters g w.ix, x.1 = other) →
      (b.toNat < a.toNat → exec (.regrp a b m) s = trapsAll s [one]) ∧
      (∀ ok o, a.toNat ≤ b.toNat → kget g.wks other = some ok → kget s.warps ok = some o →
        ((∀ m' a' b' n i, o.park ≠ .regrp m' a' b' n i) → w.held ≤ b.toNat →
          exec (.regrp a b m) s = trapsAll s [one, (ok, TrapInfo.plain 2 o.live s.ctl.insn)]) ∧
        (∀ m' a' b' n i, o.park = .regrp m' a' b' n i →
          (w.held ≤ b.toNat ∨ o.held ≤ b.toNat → exec (.regrp a b m) s = trapsAll s [one, (ok, TrapInfo.plain 2 o.live i)]) ∧
          (b.toNat < w.held → b.toNat < o.held → s.anyPending wk w.gk = false → (other < w.ix → s.warpEnts wk w.gk = []) →
            other ^^^ m' ≠ w.ix ∨ i.pc ≠ s.ctl.insn.pc ∨ o.width ≠ w.width ∨ c.act ≠ w.live ∨
              w.width < (lanesOf w.live).length + (lanesOf o.live).length →
            exec (.regrp a b m) s = trapsAll s [(wk, TrapInfo.plain 3 c.act s.ctl.insn), (ok, TrapInfo.plain 3 o.live i)]))) ∧
      (a.toNat ≤ b.toNat → b.toNat < w.held → s.anyPending wk w.gk = false → (other < w.ix → s.warpEnts wk w.gk = []) →
        kget g.wks other = none → exec (.regrp a b m) s = trapsAll s [(wk, TrapInfo.plain 3 c.act s.ctl.insn)])) ∧
    (∀ y ok o, m ≠ 0 → a.toNat ≤ b.toNat → b.toNat < w.held → other < d.desc.warps → s.anyPending wk w.gk = false →
      (other < w.ix → s.warpEnts wk w.gk = []) → c.act = w.live → s.regrpWaiters g w.ix = [y] → y.1 ≠ other →
      kget g.wks other = some ok → kget s.warps ok = some o → (∀ m' a' b' n i, o.park ≠ .regrp m' a' b' n i) →
      exec (.regrp a b m) s = trapsAll s [(y.2.1, TrapInfo.plain 3 y.2.2.1 y.2.2.2)]))

namespace Sys2Proof.Cert

open Host Sys2Proof.Machine

/-! ### Addresses and accesses -/

/-- Effective address of a lane in device virtual space (07 R189): base pair, scaled index, signed offset in units of the
access size, in 64-bit arithmetic; and in 32-bit arithmetic for scratchpad and seam window. -/
def vaddr (m : MemOpnd) (w : Warp) (off : VReg) (size l : Nat) : DWord :=
  let base : DWord := if m.vb then w.vget (m.a.toNat + 1) l ++ w.vget m.a.toNat l else spair w.s (m.a.setWidth _)
  let ix : DWord := if m.ix then (if m.iu then (w.vget m.b.toNat l).setWidth 64 else (w.vget m.b.toNat l).signExtend 64) else 0
  base + (ix <<< m.sc.toNat) + off.signExtend 64 * BitVec.ofNat 64 size
def baddr (m : MemOpnd) (w : Warp) (off : VReg) (size l : Nat) : Word :=
  let base : Word := if m.vb then w.vget m.a.toNat l else rget w.s m.a.toNat
  let ix : Word := if m.ix then w.vget m.b.toNat l else 0
  base + (ix <<< m.sc.toNat) + off.signExtend 32 * BitVec.ofNat 32 size

/-- The address of SLD and SST (06 R166), and of a memory operand on a mending core (07 R193). -/
def saddr (r : Regs) (a : SReg) (wide : Bool) (k : BitVec 9) : DWord := spair r a + k.signExtend 64 * (if wide then 8 else 4)
def maddr (m : MemOpnd) (r : Regs) (off : VReg) (size : Nat) : DWord :=
  (rget r (m.a.toNat + 1) ++ rget r m.a.toNat) + off.signExtend 64 * BitVec.ofNat 64 size

/-- An access of the issuing warp meets nothing that stops it: no acquire is pending, its slot has room, the tables that its
translation walks are at hand, and each lane's address is aligned, below 2^57 and grants the access (15 R378). -/
def AccessFree (s : State) (wk : Nat) (w : Warp) (o : Op) (align : Nat) (addr : Nat → Nat) : Prop :=
  s.acqPending (.warp wk) = false ∧ slotFull w o.slot = false ∧
  (∀ l, l ∈ o.elems.map (·.lane) → addr l % align = 0 ∧ addr l < 2 ^ 57) ∧
  (o.kind = .acc .pref ∨ ((s.walksReady o).2 = true ∧ protElems (s.openElems o) = []))

/-- The operation is issued: the warp's slot rises and the warp goes on, and translation of the operation starts. -/
def issued (s : State) (wk : Nat) (w : Warp) (c : ClausePos) (o : Op) : Res :=
  .next (((s.setWarp wk ((w.up o.slot).advance c s.insnLen)).addOp o).transOp s.opNo)

/-- An access of the issuing mending core is counted and goes to its home at once. -/
def mendIssued (s : State) (m : Nat) (x : Mend) (c : ClausePos) (kind : Nat) (o : Op) : Res :=
  .next (((((s.setMend m (x.advance c s.insnLen)).addOp o).mendCount m x kind o).dropHost s.opNo).pumpOp s.opNo)

/-- The elements of a mending core's access with their places. -/
def placed (s : State) (m : Nat) (x : Mend) (kind : Nat) (o : Op) : Op :=
  { o with elems := o.elems.map fun e => match s.mendPlace m x kind e.va with
    | .inl p => { e with place := some p }
    | .inr _ => e }

/-- It meets nothing that stops it (07 R194). -/
def MendAccessFree (s : State) (m : Nat) (x : Mend) (o : Op) (kind align ea : Nat) : Prop :=
  s.acqPending (.mend m) = false ∧ ea % align = 0 ∧ (s.mendWalk m x ea).2 = true ∧ (∃ p, s.mendPlace m x kind ea = .inl p) ∧
  s.refusals (placed s m x kind o) [] = []

/-- A warp's access, and a mending core's. -/
def IssuesAccess (i : Instr) (pub : Bool) (align : Nat) (addr : Warp → ClausePos → Nat → Nat) (op : State → Nat → Warp → ClausePos → Op) : Prop :=
  ∀ s wk w c, Runs i s wk w c → AccessFree s wk w (op s wk w c) align (addr w c) →
    exec i s = issued (if pub then s.publish w else s) wk w c (op s wk w c)
def MendIssuesAccess (i : Instr) (kind align : Nat) (addr : Mend → Nat) (op : State → Nat → Mend → Op) : Prop :=
  ∀ s m x c, MendRuns i s m x c → MendAccessFree s m x (op s m x) kind align (addr x) →
    exec i s = mendIssued s m x c kind (placed s m x kind (op s m x))

/-- A scratchpad or seam-window access meets nothing that stops it (15 R378). -/
def BankFree (s : State) (wk : Nat) (w : Warp) (o : Op) (seam : Bool) (swz align : Nat) (addr : Nat → Nat) : Prop :=
  s.acqPending (.warp wk) = false ∧ slotFull w o.slot = false ∧
  ∀ l, l ∈ o.elems.map (·.lane) → addr l % align = 0 ∧ ∃ p, s.bankCheck w seam swz (addr l) = .ok p

/-- Its elements with their places; an access through the seam window is marked as such. -/
def banked (s : State) (w : Warp) (seam : Bool) (swz : Nat) (o : Op) : Op :=
  { o with
    elems := o.elems.map fun e => match s.bankCheck w seam swz e.va with
      | .ok p => { e with place := some p }
      | _ => e
    seam := seam }

/-- A scratchpad or seam-window access. -/
def IssuesBank (i : Instr) (seam : Bool) (swz align : Nat) (addr : Warp → Nat → Nat) (op : State → Nat → Warp → ClausePos → Op) : Prop :=
  ∀ s wk w c, Runs i s wk w c → BankFree s wk w (op s wk w c) seam swz align (addr w) →
    exec i s = issued s wk w c (banked s w seam swz (op s wk w c))

/-- The data of element k of a lane: its register, or pair, of the run from d. -/
def runData (esz : Nat) (d : VReg) (w : Warp) (l k : Nat) : Nat :=
  if esz = 8 then (w.vget (d.toNat + 2 * k + 1) l ++ w.vget (d.toNat + 2 * k) l).toNat else (w.vget (d.toNat + k) l).toNat
def runDataS (esz : Nat) (d : VReg) (r : Regs) (k : Nat) : Nat :=
  if esz = 8 then (rget r (d.toNat + 2 * k + 1) ++ rget r (d.toNat + 2 * k)).toNat else (rget r (d.toNat + k)).toNat

/-- Data and swap of an atomic: of the lane's registers, or of one scalar for all lanes (07 R200). -/
def atomData (f : BitVec 3) (c : VReg) (ty : BitVec 4) (get : Nat → Nat) (e : Elem) : Elem :=
  if esize ty.toNat = 8 then
    { e with data := BitVec.ofNat 64 (get c.toNat + 2 ^ 32 * get (c.toNat + 1)),
             swap := if f = 7 then BitVec.ofNat 64 (get (c.toNat + 2) + 2 ^ 32 * get (c.toNat + 3)) else 0 }
  else { e with data := BitVec.ofNat 64 (get c.toNat), swap := if f = 7 then BitVec.ofNat 64 (get (c.toNat + 1)) else 0 }

end Sys2Proof.Cert

open Host Sys2Proof Sys2Proof.Machine Sys2Proof.Cert

/-- 07 R189 to R191, R195 to R197, R207; 06 R166: LD, LDB, ST, SLD, SST and PREF of a warp that meet no check's failure: an
operation with one element for each active lane and element number goes out under the instruction's slot. -/
def Obligations.WarpAccessesGoOut : Prop :=
  (∀ (d : VReg) (cnt : BitVec 2) (m : MemOpnd) (off : VReg) (ty : BitVec 4) (slot : BitVec 3) (sl : Slot),
    let esz := esize ty.toNat
    let size := esz * cntOf cnt
    let ea := fun (w : Warp) (l : Nat) => (vaddr m w off size l).toNat
    IssuesAccess (.ld d cnt m off ty slot) false size (fun w _ => ea w) (fun s wk w c =>
      s.warpAcc wk w c (.load true ty.toNat true) (accElems (lanesOf c.act) (cntOf cnt) esz d.toNat (ea w) noData) (some slot.toNat)) ∧
    IssuesAccess (.ldb d cnt m off ty slot) false size (fun w _ => ea w) (fun s wk w c =>
      s.warpAcc wk w c (.load false ty.toNat true) (accElems (lanesOf c.act) (cntOf cnt) esz d.toNat (ea w) noData) (some slot.toNat)) ∧
    IssuesAccess (.st d cnt m off ty sl) true size (fun w _ => ea w) (fun s wk w c =>
      s.warpAcc wk w c .store (accElems (lanesOf c.act) (cntOf cnt) esz d.toNat (ea w) (runData esz d w)) (sl.map (·.toNat))) ∧
    IssuesAccess (.pref cnt m off ty) false size (fun w _ => ea w) (fun s wk w c =>
      s.warpAcc wk w c .pref (accElems (lanesOf c.act) (cntOf cnt) esz 0 (ea w) noData) none)) ∧
  (∀ (d a : SReg) (wide : Bool) (slot : BitVec 3) (k : BitVec 9),
    let n := if wide then 8 else 4
    let ea := fun (w : Warp) => (saddr w.s a wide k).toNat
    IssuesAccess (.sld d a wide slot k) false n (fun w _ _ => ea w) (fun s wk w c =>
      s.warpAcc wk w c (.load true (if wide then 7 else 6) false)
        (accElems [(lanesOf c.act).headD 0] 1 n d.toNat (fun _ => ea w) noData) (some slot.toNat)) ∧
    IssuesAccess (.sst d a wide k) true n (fun w _ _ => ea w) (fun s wk w c =>
      s.warpAcc wk w c .store (accElems [(lanesOf c.act).headD 0] 1 n d.toNat (fun _ => ea w)
        fun _ _ => if wide then (spair w.s d).toNat else (sreg w.s d).toNat) none))

/-- 07 R198, R200 to R203; 03 R87, R90: LDS and STS, ATOM without a release part or past it, and ATOMS. -/
def Obligations.BankAccessesAndAtomicsGoOut : Prop :=
  (∀ (d : VReg) (cnt swz : BitVec 2) (seam : Bool) (m : MemOpnd) (off : VReg) (ty : BitVec 4) (slot : BitVec 3) (sl : Slot),
    let esz := esize ty.toNat
    let size := esz * cntOf cnt
    let ea := fun (w : Warp) (l : Nat) => (baddr m w off size l).toNat
    IssuesBank (.lds d cnt seam swz m off ty slot) seam swz.toNat size ea (fun s wk w c =>
      s.warpAcc wk w c (.load false ty.toNat true) (accElems (lanesOf c.act) (cntOf cnt) esz d.toNat (ea w) noData) (some slot.toNat)) ∧
    IssuesBank (.sts d cnt seam swz m off ty sl) seam swz.toNat size ea (fun s wk w c =>
      s.warpAcc wk w c .store (accElems (lanesOf c.act) (cntOf cnt) esz d.toNat (ea w) (runData esz d w)) (sl.map (·.toNat)))) ∧
  (∀ (f : BitVec 3) (d c : VReg) (m : MemOpnd) (ty : BitVec 4) (ord : BitVec 2) (scope : BitVec 3) (noret sd : Bool) (slot : Slot) s wk w p,
    let es := (lanesOf p.act).map fun l => atomData f c ty (fun r => if sd then (rget w.s r).toNat else (w.vget r l).toNat)
      (Elem.virt l (vaddr m w 0 0 l).toNat (esize ty.toNat) 0 0 d.toNat)
    let o := s.warpAcc wk w p (.atom f.toNat ty.toNat noret true ord.toNat scope.toNat) es (slot.map (·.toNat))
    Runs (.atom f d m c ty ord scope noret sd slot) s wk w p →
    AccessFree s wk w o (esize ty.toNat) (fun l => (vaddr m w 0 0 l).toNat) →
    (hasRel ord = false ∨ (s.release (.warp wk) scope.toNat (s.paired w.gk) = (s, true) ∧ (scope = 5 → s.hostMarked w.gk = false))) →
    exec (.atom f d m c ty ord scope noret sd slot) s = issued (s.publish w) wk w p o) ∧
  (∀ (f : BitVec 3) (d c : VReg) (m : MemOpnd) (ty : BitVec 4) (sd : Bool) (swz : BitVec 2) (seam : Bool) (slot : BitVec 3),
    IssuesBank (.atoms f d m c ty sd swz seam slot) seam swz.toNat (esize ty.toNat) (fun w l => (baddr m w 0 0 l).toNat)
      (fun s wk w p => s.warpAcc wk w p (.atom f.toNat ty.toNat false true 0 0)
        ((lanesOf p.act).map fun l => atomData f c ty (fun r => if sd then (rget w.s r).toNat else (w.vget r l).toNat)
          (Elem.virt l (baddr m w 0 0 l).toNat (esize ty.toNat) 0 0 d.toNat)) (some slot.toNat)))

/-- 07 R193, R194: the accesses of a mending core; PREF asks for its sector; LDS, STS and ATOMS trap there with ILLEGAL_OPERAND. -/
def Obligations.MendingCoreAccesses : Prop :=
  (∀ (d : VReg) (cnt : BitVec 2) (m : MemOpnd) (off : VReg) (ty : BitVec 4) (slot : BitVec 3) (sl : Slot),
    let esz := esize ty.toNat
    let size := esz * cntOf cnt
    let ea := fun (x : Mend) => (maddr m x.s off size).toNat
    MendIssuesAccess (.ld d cnt m off ty slot) 0 size ea (fun s k x =>
      s.mendAcc k x (.load false ty.toNat false) (accElems [0] (cntOf cnt) esz d.toNat (fun _ => ea x) noData)) ∧
    MendIssuesAccess (.ldb d cnt m off ty slot) 0 size ea (fun s k x =>
      s.mendAcc k x (.load false ty.toNat false) (accElems [0] (cntOf cnt) esz d.toNat (fun _ => ea x) noData)) ∧
    MendIssuesAccess (.st d cnt m off ty sl) 1 size ea (fun s k x =>
      s.mendAcc k x .store (accElems [0] (cntOf cnt) esz d.toNat (fun _ => ea x) fun _ => runDataS esz d x.s)) ∧
    (∀ s k x c, MendRuns (.pref cnt m off ty) s k x c → ea x % size = 0 → (s.mendWalk k x (ea x)).2 = true →
      (∀ a y, mendSpace k (ea x) ≠ .bad → s.mendPlace k x 8 (ea x) = .inl (.loc a y) → exec (.pref cnt m off ty) s =
        .next (((s.setMend k (x.advance c s.insnLen)).addOp
          (s.mendAcc k x .pref [Elem.at_ 0 (ea x) 1 (.loc a y) 0 0 0])).serve s.opNo 0)) ∧
      (∀ va cause, mendSpace k (ea x) = .virt va → s.mendPlace k x 8 (ea x) = .inr cause → cause ≠ cOperand →
        exec (.pref cnt m off ty) s = mendGoesOn s k x c))) ∧
  (∀ (d a : SReg) (wide : Bool) (slot : BitVec 3) (k : BitVec 9),
    let n := if wide then 8 else 4
    let ea := fun (x : Mend) => (saddr x.s a wide k).toNat
    MendIssuesAccess (.sld d a wide slot k) 0 n ea (fun s m x =>
      s.mendAcc m x (.load false (if wide then 7 else 6) false) (accElems [0] 1 n d.toNat (fun _ => ea x) noData)) ∧
    MendIssuesAccess (.sst d a wide k) 1 n ea (fun s m x =>
      s.mendAcc m x .store (accElems [0] 1 n d.toNat (fun _ => ea x)
        fun _ _ => if wide then (spair x.s d).toNat else (sreg x.s d).toNat))) ∧
  (∀ (f : BitVec 3) (d c : VReg) (m : MemOpnd) (ty : BitVec 4) (ord : BitVec 2) (scope : BitVec 3) (noret sd : Bool) (slot : Slot) s k x p,
    let o := s.mendAcc k x (.atom f.toNat ty.toNat noret false ord.toNat scope.toNat)
      [atomData f c ty (fun r => (rget x.s r).toNat) (Elem.virt 0 (maddr m x.s 0 0).toNat (esize ty.toNat) 0 0 d.toNat)]
    MendRuns (.atom f d m c ty ord scope noret sd slot) s k x p → MendAccessFree s k x o 2 (esize ty.toNat) (maddr m x.s 0 0).toNat →
    (hasRel ord = false ∨ s.release (.mend k) scope.toNat false = (s, true)) →
    exec (.atom f d m c ty ord scope noret sd slot) s = mendIssued s k x p 2 (placed s k x 2 o)) ∧
  (∀ (d c : VReg) (m : MemOpnd) (off : VReg) (cnt seam swz : _) (f : _) (sd : Bool) (ty : BitVec 4) (slot : BitVec 3) (sl : Slot) s k x p,
    MendIssues s k x p → exec (.lds d cnt seam swz m off ty slot) s = trapRes s cOperand ∧
      exec (.sts d cnt seam swz m off ty sl) s = trapRes s cOperand ∧
      exec (.atoms f d m c ty sd swz seam slot) s = trapRes s cOperand)

/-- 07 R204 to R206: FENCE goes on once its release part has nothing to wait for (at system scope, no host-homed store of the issuer
that the host has not taken, 11 R327) and, with an acquire part, once the loads and atomics before it have returned; its acquire part
then acts on the core. WADR writes the address in each active lane, or
issues a probe. -/
def Obligations.FencesAndAddresses : Prop :=
  (∀ (scope : BitVec 3) (kind : BitVec 2) s wk w c, Runs (.fence scope kind) s wk w c →
    (hasRel kind = true → s.release (.warp wk) scope.toNat (s.paired w.gk) = (s, true)) →
    (hasAcq kind = true → s.returnWaits (.warp wk) = false) → (scope = 5 → s.hostMarked w.gk = false) →
    exec (.fence scope kind) s =
      goesOn (if hasAcq kind then s.acquire (wkCore wk) scope.toNat (s.paired w.gk) else s) wk w c) ∧
  (∀ (scope : BitVec 3) (kind : BitVec 2) s m x c, MendRuns (.fence scope kind) s m x c →
    (hasRel kind = true → s.release (.mend m) scope.toNat false = (s, true)) →
    (hasAcq kind = true → s.returnWaits (.mend m) = false) →
    exec (.fence scope kind) s = mendGoesOn s m x c) ∧
  (∀ (s : State) (who : Who) (scope : Nat) (pair : Bool), s.relWaits who scope pair = false →
    (scope = 5 → (s.hostOf who).unacc = false ∧ ∀ b ∈ s.host.buf, b.who ≠ who) → s.release who scope pair = (s, true)) ∧
  (∀ (d : VReg) (cnt : BitVec 2) (m : MemOpnd) (off : VReg) (ty : BitVec 4),
    let size := esize ty.toNat * cntOf cnt
    WarpEffect (.wadr d cnt m off ty none) (fun c w =>
      w.putLanes true d.toNat (lanesOf c.act) fun l => (vaddr m w off size l).toNat) ∧
    (∀ (k : BitVec 3) s wk w c, Runs (.wadr d cnt m off ty (some k)) s wk w c → slotFull w (some k.toNat) = false →
      (s.walkGate w.ctx ((lanesOf c.act).map fun l => s.lined w.ctx (vaddr m w off size l).toNat false)).2 = true →
      exec (.wadr d cnt m off ty (some k)) s = issued s wk w c (s.warpAcc wk w c .probe ((lanesOf c.act).map fun l =>
        Elem.known l 8 d.toNat (BitVec.ofNat 64 (s.probeWord w.ctx (vaddr m w off size l).toNat))) (some k.toNat))) ∧
    (∀ s k x c, MendRuns (.wadr d cnt m off ty none) s k x c → exec (.wadr d cnt m off ty none) s =
      mendGoesOn s k { x with s := (wrPair x.sctx (d.setWidth 6) (maddr m x.s off size)).s } c) ∧
    (∀ (q : BitVec 3) s k x c, MendRuns (.wadr d cnt m off ty (some q)) s k x c →
      let put := fun (v : Nat) => mendGoesOn s k { x with s := sput x.s true d.toNat v } c
      (∀ va, mendSpace k (maddr m x.s off size).toNat = .virt va → s.ctxLive x.ctxsel.toNat = true →
        (s.mendWalk k x (maddr m x.s off size).toNat).2 = true →
        exec (.wadr d cnt m off ty (some q)) s = put (s.probeWord x.ctxsel.toNat va)) ∧
      ((∀ va, mendSpace k (maddr m x.s off size).toNat ≠ .virt va) → exec (.wadr d cnt m off ty (some q)) s = put 0)))

/-- 08 R246; 07 R191, R192, R202: at its instant an element of a store writes its bytes and no other byte of local memory;
one of a load changes no byte; one of an atomic writes the new value of its function and takes the old one. -/
def Obligations.ElementsActAtTheirHome : Prop :=
  ∀ (s : State) (k i : Nat) (o : Op) (e : Elem) (a : Nat) (y : L1Kind), kget s.ops k = some o → o.elems[i]? = some e →
    s.mem.bytes.wf = true → (∀ g ∈ s.grids, g.2.linings = []) → (∀ j, j < e.n → s.mem.valid (a + j) = true) →
    (∀ x, (∀ j, j < e.n → x ≠ a + j) → (s.applyElem k i o e (.loc a y)).mem.byte x = s.mem.byte x) ∧
    (o.kind = .acc .store → ∀ j, j < e.n → j < 8 →
      (s.applyElem k i o e (.loc a y)).mem.byte (a + j) = BitVec.setWidth 8 (e.data >>> (8 * j))) ∧
    (∀ l1 ty v, o.kind = .acc (.load l1 ty v) →
      (s.applyElem k i o e (.loc a y)).mem = s.mem ∧
      (((kget (s.applyElem k i o e (.loc a y)).ops k).bind fun o => o.elems[i]?).bind (·.got)) =
        some (BitVec.ofNat 64 (leNat ((List.range e.n).map fun j => s.mem.byte (a + j))))) ∧
    (∀ fn ty nr v q sc, o.kind = .acc (.atom fn ty nr v q sc) →
      let old := leNat ((List.range e.n).map fun j => s.mem.byte (a + j))
      (∀ j, j < e.n → j < 8 → (s.applyElem k i o e (.loc a y)).mem.byte (a + j) =
        BitVec.ofNat 8 (atomNew fn ty old e.data.toNat e.swap.toNat / 2 ^ (8 * j))) ∧
      (((kget (s.applyElem k i o e (.loc a y)).ops k).bind fun o => o.elems[i]?).bind (·.got)) = some (BitVec.ofNat 64 old))

/-- 07 R191, R197; 08 R246; 03 R72: translating, sending or holding an access that no check stops changes no byte that local
memory holds, of the pool, of the carve or of any scratchpad, no register of any warp or mending core and no other operation, whatever
demand records it posts, whatever page it evicts to make room and whatever table entry it asks of a peer (contexts with no fold installed; a fold's own schedule moves
sectors, 03 R84). -/
def Obligations.AccessesGoOutWithoutEffect : Prop :=
  ∀ (s : State) (k : Nat) (o : Op), kget s.ops k = some o → (∀ g ∈ s.grids, g.2.folds = []) →
    ksorted s.mem.secs = true → (∀ x ∈ s.ops, x.1 < s.ctl.nextOp) →
    protElems (s.openElems o) = [] → s.handlerStore o = false → s.refusals o (s.openElems o) = [] →
    let t := s.transOp k
    (∀ a, t.mem.valid a = true → s.mem.valid a = true ∧ t.mem.byte a = s.mem.byte a) ∧
    t.mem.pool = s.mem.pool ∧ t.mem.carve = s.mem.carve ∧ t.warps = s.warps ∧
    (∀ gk, (kget t.groups gk).map (·.scr) = (kget s.groups gk).map (·.scr)) ∧
    (∀ m, (kget t.mends m).map (·.s) = (kget s.mends m).map (·.s)) ∧
    (∀ j x, j ≠ k → kget s.ops j = some x → kget t.ops j = some x)

namespace Sys2Proof.Cert

open Host Sys2Proof.Machine

/-- An asynchronous operation of the issuing warp joins its open batch, on an engine of its partition, and the warp goes on. -/
def asyncIssued (s : State) (wk : Nat) (w : Warp) (c : ClausePos) (work : AWork) (slot : Option Nat) (es : List Elem := []) : Res :=
  .next ((s.setWarp wk ((w.up slot).advance c s.insnLen)).addOp
    { who := .warp wk, ctx := w.ctx, gk := w.gk, insn := s.ctl.insn,
      kind := .async work 0 [] [] (s.pickEngine (s.warpPart w)) w.batch, lanes := 0, slot := slot,
      elems := es, hold := [], want := [], epoch := 0 })

/-- A warp may issue an asynchronous instruction: no acquire is pending and fewer than 256 of its operations are out. -/
def AsyncFree (s : State) (wk : Nat) : Prop := s.asyncHeld wk = false

/-- The warp has no record read out; the one it sent has returned a record. -/
def NoRecord (s : State) (wk : Nat) : Prop := s.ops.find? (fun o => o.2.who == .warp wk && o.2.kind == .acc .recRd) = none
def HasRecord (s : State) (wk x r : Nat) : Prop :=
  ∃ o, s.ops.find? (fun o => o.2.who == .warp wk && o.2.kind == .acc .recRd) = some (x, o) ∧ o.allDone = true ∧
    r = packFields (o.elems.map fun e => ((e.got.getD 0).toNat, 64))

/-- The state without the record read. -/
def took (s : State) (x : Nat) : State := { s with ops := kdel s.ops x }

/-- The eight reads of a record of 64 bytes. -/
def recordOp (s : State) (wk : Nat) (w : Warp) (c : ClausePos) (a : Nat) : Op :=
  s.warpAcc wk w c .recRd (accElems [(lanesOf c.act).headD 0] 8 8 0 (fun _ => a) noData) none

/-- An operation finds the tables at hand that its translations walk, and no page of it fails its permission (03 R66, R72). -/
def CanRead (s : State) (o : Op) : Prop := (s.walksReady o).2 = true ∧ protElems (s.openElems o) = []

/-- The home of a lining record whose page the context translates, in local mode and with RD and W. -/
def LineHome (s : State) (w : Warp) (a : Nat) (carve : Bool) (home : Nat) : Prop :=
  (s.walkGate w.ctx [s.lined w.ctx a false]).2 = true ∧
  ∃ p l big, s.check w.ctx 11 false a = .ok p l big ∧ p.recHome l = some (carve, home) ∧ leafRd l = true ∧ leafW l = true

/-- The home is ready, or the page's new home can be reached. -/
def RecReady (s : State) (carve : Bool) (home : Nat) : Prop :=
  s.recCut carve home = false ∧ (s.recGate s.opNo carve home).2 = true

/-- A grid's map of folds or linings changed. -/
def withFolds (s : State) (ctx : Nat) (f : KV Fold → KV Fold) : State := s.modGrid ctx fun g => { g with folds := f g.folds }
def withLinings (s : State) (ctx : Nat) (f : KV Lining → KV Lining) : State := s.modGrid ctx fun g => { g with linings := f g.linings }

end Sys2Proof.Cert

open Host Sys2Proof Sys2Proof.Machine Sys2Proof.Cert

/-- 07 R208, R209, R213, R215, R217 to R221: CPX reads its record and then starts; CGAT, CSCT and CRED whose operands pass
start an operation of the open batch with the operands they read; CRED publishes its group. -/
def Obligations.CopiesJoinTheOpenBatch : Prop :=
  (∀ (a b c : SReg) s wk w p, Runs (.cpx a b c) s wk w p → AsyncFree s wk → (spair w.s a).toNat % 64 = 0 →
    (NoRecord s wk → CanRead s (recordOp s wk w p (spair w.s a).toNat) → (spair w.s a).toNat < 2 ^ 57 →
      exec (.cpx a b c) s = .next ((s.addOp (recordOp s wk w p (spair w.s a).toNat)).transOp s.opNo)) ∧
    (∀ x r, HasRecord s wk x r →
      let cs := (List.range 4).map fun i => (rget w.s (b.toNat + i)).toInt
      let disp := if layDkind r = 0 then (spair w.s c).toNat else (sreg w.s c).toNat
      let sa := if laySkind r = 0 then [] else ((List.range (layCount r)).filter fun k => !layOut r cs k).map fun k => laySrc r cs k
      let da := if layDkind r = 0 then [] else (List.range (layCount r)).map fun k => layDst r disp k
      layOk r = true → (layOob r = true ∨ layAnyOut r cs = false) →
      sideFault (took s x) w p [(sideOf (laySkind r) (laySwz r), sa), (sideOf (layDkind r) (laySwz r), da)] = none →
      exec (.cpx a b c) s = asyncIssued (took s x) wk w p (.cpx r disp cs) none)) ∧
  (∀ (a b : SReg) (ty : BitVec 4) s wk w c, Runs (.cgatIdx a b ty) s wk w c → AsyncFree s wk →
    let n := (sreg w.s b).toNat
    n ≠ 0 → n ≤ 4096 → (spair w.s a).toNat % esize ty.toNat = 0 → (s.liveBufs wk w).length < Config.indexBuffers →
    exec (.cgatIdx a b ty) s = asyncIssued s wk
      { w with ibufs := s.liveBufs wk w ++ [{ op := s.opNo, ty := ty.toNat, n := n, vals := [], full := false, own := true }] }
      c (.idx (spair w.s a).toNat n ty.toNat) none) ∧
  (∀ (d a b c : SReg) (kind swz : BitVec 2) s wk w p i, AsyncFree s wk → w.latestBuf = some i →
    let r := (sreg w.s b).toNat
    let side := sideOf kind.toNat swz.toNat
    r % 16 = 0 → r ≠ 0 → r ≤ 65536 →
    (Runs (.cgatRow d a b c kind swz) s wk w p → sideFault s w p [(side, rangeWords (spair w.s d).toNat (i.n * r))] = none →
      exec (.cgatRow d a b c kind swz) s =
        asyncIssued s wk w p (.row (spair w.s d).toNat (spair w.s a).toNat r (sreg w.s c).toNat i.n i.ty side i.op) none) ∧
    (Runs (.csct d a b c kind swz) s wk w p → sideFault s w p [(side, rangeWords (spair w.s a).toNat (i.n * r))] = none →
      exec (.csct d a b c kind swz) s =
        asyncIssued s wk w p (.csct (spair w.s d).toNat (spair w.s a).toNat r (sreg w.s c).toNat i.n i.ty side i.op) none)) ∧
  (∀ (f kind swz : BitVec 2) (d a b : SReg) (ty : BitVec 4) s wk w p, Runs (.cred f d a b ty kind swz) s wk w p → AsyncFree s wk →
    let n := (sreg w.s b).toNat
    let side := sideOf kind.toNat swz.toNat
    n ≠ 0 → n ≤ 2 ^ 24 → (spair w.s d).toNat % esize ty.toNat = 0 → (spair w.s a).toNat % esize ty.toNat = 0 →
    sideFault s w p [(side, rangeWords (spair w.s a).toNat (n * esize ty.toNat))] = none →
    exec (.cred f d a b ty kind swz) s = asyncIssued (s.modGroup w.gk fun g => { g with pub := true }) wk w p
      (.cred (spair w.s d).toNat (spair w.s a).toNat n ty.toNat f.toNat side) none)

/-- 07 R210, R211: CSEAL seals the open batch, with its completion word when it has one; CWAIT goes on once at most N batches
are unfinished, and waits while more are. -/
def Obligations.BatchesAreSealedAndAwaited : Prop :=
  (∀ (cw add : Bool) (d a : SReg) s wk w c, Runs (.cseal cw add d a) s wk w c → s.acqPending (.warp wk) = false →
    w.sealed.length < Config.maxBatches → (cw = true → (spair w.s a).toNat % 8 = 0 ∧ (spair w.s a).toNat < 2 ^ 57) →
    let word : Option ComplWord := if cw then some { addr := (spair w.s a).toNat, val := spair w.s d, add := add, insn := s.ctl.insn } else none
    exec (.cseal cw add d a) s = goesOn (if cw then s.modGroup w.gk fun g => { g with pub := true } else s) wk
      { w with sealed := w.sealed ++ [{ seq := w.batch, cw := word }], batch := w.batch + 1 } c) ∧
  (∀ (n : Byte) s wk w c, Runs (.cwait n) s wk w c → s.acqPending (.warp wk) = false →
    (w.sealed.length ≤ n.toNat → exec (.cwait n) s = goesOn s wk w c) ∧
    (n.toNat < w.sealed.length → exec (.cwait n) s = .next s))

/-- 07 R222 to R226; 11 R338: LNOPEN writes an open record at its home and opens the lining in its context; CLOSE clears OPEN
of a lining whose SIDE is 0 and ends it; TURN starts its operation. A record whose page has moved is written at its new
home, by stores that the operation awaits: that, and what a front page that is not local takes, is log 92. What a record in a
page of another device takes is log 31. -/
def Obligations.LiningsOpenTurnAndClose : Prop :=
  (∀ (d a b c : SReg) s wk w p g carve home pl l big, Runs (.lnopen d a b c) s wk w p → AsyncFree s wk →
    kget s.grids w.ctx = some g →
    let r := (spair w.s d).toNat
    let front := (spair w.s a).toNat
    let back := (spair w.s b).toNat
    let n := (sreg w.s c).toNat
    0 < n → n ≤ 65535 → front % 65536 = 0 → back % 65536 = 0 → r % 64 = 0 → overlap front (n * 65536) back (n * 65536) = false →
    g.liningHits front (n * 65536) = false → g.liningHits back (n * 65536) = false → g.linings.length < Config.maxLinings →
    kget g.linings r = none → LineHome s w r carve home → s.liningAt carve home = none → RecReady s carve home →
    (s.walkGate w.ctx [front]).2 = true → s.check w.ctx 11 false front = .ok pl l big →
    let li : Lining := { home := home, carve := carve, front := front, back := back, npages := n, side := false, turns := 0,
                         pressed := leafPressed l, group := w.gk }
    let wr := s.sendRecord r carve home (leBytes 64 (liningBits li w.ctx))
    exec (.lnopen d a b c) s = asyncIssued (withLinings wr.1 w.ctx fun m => kset m r li) wk w p .lnopen none wr.2) ∧
  (∀ (s : State) (r home : Nat) (carve : Bool) (bs : List Byte), s.recForward carve home = none →
    s.sendRecord r carve home bs = (s.putRecord carve home bs, [])) ∧
  (∀ (d : SReg) s wk w p carve home grid key l, Runs (.lnopenClose d) s wk w p → AsyncFree s wk → (spair w.s d).toNat % 64 = 0 →
    LineHome s w (spair w.s d).toNat carve home → s.liningAt carve home = some (grid, key, l) → s.asyncOps wk = [] →
    (l.side = false → RecReady s carve home →
      (s.recForward carve home = none → exec (.lnopenClose d) s =
        asyncIssued (withLinings { s with mem := s.mem.closeLining l } grid fun m => kdel m key) wk w p .lnopen none) ∧
      (∀ fw, s.recForward carve home = some fw →
        let wr := s.sendRecord (spair w.s d).toNat carve home (leBytes 64 (liningBits l grid &&& (2 ^ 512 - 2)))
        exec (.lnopenClose d) s = asyncIssued (withLinings wr.1 grid fun m => kdel m key) wk w p .lnopen none wr.2)) ∧
    (l.side = true → exec (.lnopenClose d) s = .next (s.trapCur 2 p.act))) ∧
  (∀ (a : SReg) (slot : Slot) s wk w p carve home key l, Runs (.turn a slot) s wk w p → AsyncFree s wk →
    slotFull w (slot.map (·.toNat)) = false → LineHome s w (spair w.s a).toNat carve home →
    s.liningAt carve home = some (w.ctx, key, l) →
    (l.pressed = true → s.lacksWriter w.ctx l = none) →
    exec (.turn a slot) s = asyncIssued s wk w p (.turn key false l.front l.back l.npages) (slot.map (·.toNat))) ∧
  (∀ (m : MemSys) (l : Lining), m.bytes.wf = true → m.carve.wf = true →
    (l.carve = true → mget (m.closeLining l).carve l.home = mget m.carve l.home &&& 0xFE ∧ (m.closeLining l).bytes = m.bytes ∧
      ∀ x, x ≠ l.home → mget (m.closeLining l).carve x = mget m.carve x) ∧
    (l.carve = false → mget (m.closeLining l).bytes l.home = mget m.bytes l.home &&& 0xFE ∧ (m.closeLining l).carve = m.carve ∧
      ∀ x, x ≠ l.home → mget (m.closeLining l).bytes x = mget m.bytes x))

/-- 07 R227 to R229; 03 R82 to R84: PFOLD installs a fold whose record has no reserved bit set, with count 0 and its first
step, and fetches or releases a region of it; FOLDX removes it; LANDARM arms an enabled landing window for the context. -/
def Obligations.FoldsAndLandingWindowsAreArmed : Prop :=
  (∀ (a : SReg) s wk w p g, Runs (.pfoldInstall a) s wk w p → s.acqPending (.warp wk) = false → kget s.grids w.ctx = some g →
    let f := (sreg w.s a).toNat % 4096
    let base := bitsOf g.foldbase.toNat 16 41 * 65536 + 64 * f
    g.foldOk f = true →
    (NoRecord s wk → CanRead s (recordOp s wk w p base) → base < 2 ^ 57 →
      exec (.pfoldInstall a) s = .next ((s.addOp (recordOp s wk w p base)).transOp s.opNo)) ∧
    (∀ x r, HasRecord s wk x r → foldReserved r = false → exec (.pfoldInstall a) s =
      .next (((withFolds (took s x) w.ctx fun m => kset m f { count := 0, k := foldFirst r, bits := r }).setWarp wk
        (w.advance p s.insnLen)).foldRun w.ctx f (foldNstep r + 1)))) ∧
  (∀ (a b c : SReg) s wk w p g r, s.acqPending (.warp wk) = false → kget s.grids w.ctx = some g →
    g.foldOk ((sreg w.s a).toNat % 4096) = true → kget g.folds ((sreg w.s a).toNat % 4096) = some r →
    let go := fun fetch => goesOn (s.foldRegion w.ctx r.bits (sreg w.s b).toNat (sreg w.s c).toNat fetch) wk w p
    (Runs (.pfoldFetch a b c) s wk w p → exec (.pfoldFetch a b c) s = go true) ∧
    (Runs (.pfoldRelease a b c) s wk w p → exec (.pfoldRelease a b c) s = go false)) ∧
  (∀ (a : SReg) s wk w p g r, Runs (.foldx a) s wk w p → s.acqPending (.warp wk) = false → kget s.grids w.ctx = some g →
    let f := (sreg w.s a).toNat % 4096
    g.foldOk f = true → kget g.folds f = some r → exec (.foldx a) s =
      goesOn (withFolds (s.foldRegion w.ctx r.bits 0 65536 false) w.ctx fun m => kdel m f) wk w p) ∧
  (∀ (a : SReg) s wk w p, Runs (.landarm a) s wk w p → s.acqPending (.warp wk) = false →
    let n := (sreg w.s a).toNat
    (n < 64 → (s.win n).en = true → ((s.win n).ctx = none ∨ (s.win n).ctx = some w.ctx) →
      exec (.landarm a) s = goesOn (s.modWin n fun v => { v with ctx := some w.ctx, count := 0, fault := false }) wk w p) ∧
    (64 ≤ n ∨ (s.win n).en = false → exec (.landarm a) s = .next (s.trapCur 2 p.act)))

namespace Sys2Proof.Cert

open Host Sys2Proof.Machine

/-- The issuing warp's group holds tiles and its queue has room, no acquire is pending and the slot has room (09 R263, R274);
a collective instruction needs every lane of the warp. -/
def QueueFree (s : State) (wk : Nat) (w : Warp) (c : ClausePos) (g : Group) (collective : Bool) (slot : Slot) : Prop :=
  kget s.groups w.gk = some g ∧ s.holdsTiles w.gk = true ∧ g.mq.length < Config.matrixQueue ∧
  slotFull w (slot.map (·.toNat)) = false ∧ s.acqPending (.warp wk) = false ∧ (collective = true → c.act = lanesFull w.width)

/-- An entry joins the queue of the group: the slot rises, the warp goes on, the tile's issue-order tag is the one given, and
the requests of its rows, if any, are an operation that starts with its pipe. -/
def queued (s : State) (wk : Nat) (w : Warp) (c : ClausePos) (slot : Slot) (tag : Option (Nat × Byte)) (work : MWork)
    (rows : Option (Bool × List Elem)) : Res :=
  let sl := slot.map (·.toNat)
  let s1 := s.setWarp wk ((w.up sl).advance c s.insnLen)
  let s2 := match rows with
    | some (wr, es) => s1.addOp (s1.warpAcc wk w c (.tile wr 0) es none)
    | none => s1
  .next (s2.bumpOp.modGroup w.gk fun g =>
    let g := { g with mq := g.mq ++ [{ id := s2.opNo, wk := wk, insn := s.ctl.insn, work := work, slot := sl, pipe := none,
                                       op := rows.map fun _ => s.opNo }] }
    match tag with
    | some (t, x) => g.setItag t x
    | none => g)

/-- A tag byte: VALID, FORM 0, ACC, SP, FMT (09 Table 9-1). -/
def tagByte (acc sp : Bool) (fmt : BitVec 4) : Byte := (1 : BitVec 1) ++ (0 : BitVec 1) ++ BitVec.ofBool acc ++ BitVec.ofBool sp ++ fmt

/-- Alignment of address and stride: 32 for scaled formats other than MXFP4, else 16 (09 R282, R283). -/
def tileAlign (scaled : Bool) (fmt : Nat) : Nat := if scaled = true ∧ fmt ≠ 9 then 32 else 16

/-- The pairing check of an MMA (09 R266): valid operand tags of a listed pair of formats, and an accumulator of its format. -/
def pairs (a b c : Byte) (hi zc : Bool) : Prop :=
  a.getLsbD 7 = true ∧ b.getLsbD 7 = true ∧ a.getLsbD 5 = false ∧ b.getLsbD 5 = false ∧
  ((a.toNat % 16, b.toNat % 16) ∈ ([(0, 0), (1, 1), (3, 3), (4, 4), (4, 5), (5, 4), (5, 5), (6, 6), (7, 7), (7, 8), (7, 10), (8, 7),
    (8, 8), (8, 10), (10, 7), (10, 8), (10, 10), (9, 9)] : List (Nat × Nat))) ∧
  (zc = true ∨ c = if a.toNat % 16 = 3 then 0xA3 else 0xA2) ∧ (a.toNat % 16 = 3 ∨ hi = false)

end Sys2Proof.Cert

open Host Sys2Proof Sys2Proof.Machine Sys2Proof.Cert

/-- 09 R266, R274, R281 to R288: TLD, TST, TZERO, TCVT, TMOV both ways, MMA and MMAS that pass their checks at issue join the
queue of their group with the operands they read, and leave their issue-order tag. -/
def Obligations.MatrixInstructionsJoinTheQueue : Prop :=
  (∀ (t : BitVec 4) (a b : SReg) (darned : Bool) (ty : BitVec 4) (rows : BitVec 7) (sp acc : Bool) (slot : Slot) s wk w c g,
    let n := rows.toNat + 1
    let addr := (spair w.s a).toNat
    let stride := (sreg w.s b).toNat
    Runs (.tld t a b darned ty rows sp acc slot) s wk w c → QueueFree s wk w c g true slot → ¬ (acc = true ∧ ty = 3 ∧ 64 < n) →
    addr % tileAlign darned ty.toNat = 0 → stride % tileAlign darned ty.toNat = 0 →
    exec (.tld t a b darned ty rows sp acc slot) s = queued s wk w c slot (some (t.toNat, tagByte acc sp ty))
      (.tld t.toNat darned ty.toNat n sp acc)
      (some (false, rowElems addr stride n (memRowBytes ty.toNat acc) (darned && ty != 9)))) ∧
  (∀ (t : BitVec 4) (a b : SReg) (rows : BitVec 7) (slot : Slot) s wk w c g,
    let n := rows.toNat + 1
    let addr := (spair w.s a).toNat
    let stride := (sreg w.s b).toNat
    let tag := g.itag t.toNat
    let fmt := tag.toNat % 16
    Runs (.tst t a b rows slot) s wk w c → QueueFree s wk w c g true slot → tag.getLsbD 7 = true →
    ¬ (tag.getLsbD 5 = true ∧ fmt = 3 ∧ 64 < n) →
    addr % tileAlign (decide (7 ≤ fmt ∧ fmt ≤ 10)) fmt = 0 → stride % tileAlign (decide (7 ≤ fmt ∧ fmt ≤ 10)) fmt = 0 →
    exec (.tst t a b rows slot) s = queued s wk w c slot none (.tst t.toNat n)
      (some (true, rowElems addr stride n (memRowBytes fmt (tag.getLsbD 5))))) ∧
  (∀ (t : BitVec 4) (k : BitVec 2) s wk w c g, Runs (.tzero t k) s wk w c → QueueFree s wk w c g false none →
    exec (.tzero t k) s = queued s wk w c none (some (t.toNat, if k = 0 then 0xA2 else if k = 1 then 0xA3 else 0))
      (.tzero t.toNat k.toNat) none) ∧
  (∀ (d a ty : BitVec 4) (rm : BitVec 3) (c0 : Byte) (sat : Bool) (slot : Slot) s wk w c g,
    Runs (.tcvt d a ty rm c0 sat slot) s wk w c → QueueFree s wk w c g false slot → d ≠ a → 8 * c0.toNat + 128 ≤ tfK ty.toNat →
    (tfScaled ty.toNat = true → 8 * c0.toNat % 24 = 0) → g.itag a.toNat = 0xA2 →
    exec (.tcvt d a ty rm c0 sat slot) s = queued s wk w c slot (some (d.toNat, tagByte false false ty))
      (.tcvt d.toNat a.toNat ty.toNat rm.toNat (8 * c0.toNat) sat) none) ∧
  (∀ (t : BitVec 4) (a : VReg) (ra : Bool) (b : SReg) (ty : BitVec 4) (n : BitVec 3) (hem sp acc form : Bool) (slot : Slot) s wk w c g,
    let w0 := (sreg w.s b).toNat
    Runs (.tmovVt t a ra b ty n hem sp acc form slot) s wk w c → QueueFree s wk w c g false slot →
    w0 + 2 ^ n.toNat * w.width ≤ (if hem then 1024 else 16384) →
    exec (.tmovVt t a ra b ty n hem sp acc form slot) s = queued s wk w c slot (some (t.toNat, tagByte acc sp ty))
      (.tmovVt t.toNat ty.toNat hem sp acc form ((lanesOf c.act).flatMap fun l => (List.range (2 ^ n.toNat)).map fun i =>
        (w0 + i * w.width + l, w.vget (a.toNat + i) l))) none) ∧
  (∀ (d : VReg) (t : BitVec 4) (b : SReg) (n : BitVec 3) (hem : Bool) (slot : BitVec 3) s wk w c g,
    let w0 := (sreg w.s b).toNat
    Runs (.tmovTv d t b n hem slot) s wk w c → QueueFree s wk w c g false (some slot) →
    w0 + 2 ^ n.toNat * w.width ≤ (if hem then 1024 else 16384) →
    exec (.tmovTv d t b n hem slot) s = queued s wk w c (some slot) none
      (.tmovTv t.toNat hem ((lanesOf c.act).flatMap fun l => (List.range (2 ^ n.toNat)).map fun i =>
        (d.toNat + i, l, w0 + i * w.width + l))) none) ∧
  (∀ (d a b c : BitVec 4) (hi zc : Bool) (slot : Slot) s wk w p g, QueueFree s wk w p g true slot → d ≠ a → d ≠ b →
    pairs (g.itag a.toNat) (g.itag b.toNat) (g.itag c.toNat) hi zc →
    let r := queued s wk w p slot (some (d.toNat, if (g.itag a.toNat).toNat % 16 = 3 then 0xA3 else 0xA2))
      (.mma d.toNat a.toNat b.toNat c.toNat hi zc) none
    (Runs (.mma d a b c hi zc slot) s wk w p → exec (.mma d a b c hi zc slot) s = r) ∧
    (Runs (.mmas d a b c hi zc slot) s wk w p → exec (.mmas d a b c hi zc slot) s = r))

namespace Sys2Proof.Cert

open Host Sys2Proof.Machine

/-- Every form of the matrix class. -/
def IsMatrix : Instr → Prop
  | .tld .. => True
  | .tst .. => True
  | .tzero .. => True
  | .tcvt .. => True
  | .tmovVt .. => True
  | .tmovTv .. => True
  | .mma .. => True
  | .mmas .. => True
  | _ => False

/-- The instruction traps with a cause in the state in which it issues, where the warp's group has a queue that takes it, and
some condition holds of the warp, its clause and its group. -/
def MatrixTraps (i : Instr) (slot : Slot) (cause : Nat) (p : Warp → ClausePos → Group → Prop) : Prop :=
  ∀ s wk w c g, Runs i s wk w c → QueueFree s wk w c g false slot → p w c g → exec i s = .next (s.trapCur cause c.act)

end Sys2Proof.Cert

open Host Sys2Proof Sys2Proof.Machine Sys2Proof.Cert

/-- 09 R263, R266, R274, R281 to R283, R286 to R288; 15 R378: an instruction of the matrix class that fails a check at issue traps in the state
in which it issues, so that nothing joins the queue: with ILLEGAL_OPERAND, TLD, TST, TZERO, TCVT, TMOV both ways, MMA and MMAS
of a group without tiles, and operands that a form does not take; with FORMAT_PAIRING, tags that MMA, MMAS, TCVT or TST does
not accept; and with ILLEGAL_CONVERGENCE, TLD, TST, MMA and MMAS with a lane of the width not live and active. -/
def Obligations.MatrixChecksTrapAtIssue : Prop :=
  (∀ i s wk w c g, IsMatrix i → Runs i s wk w c → kget s.groups w.gk = some g → s.holdsTiles w.gk = false →
    exec i s = .next (s.trapCur 2 c.act)) ∧
  (∀ (t : BitVec 4) (a b : SReg) (darned : Bool) (ty : BitVec 4) (rows : BitVec 7) (sp acc : Bool) (slot : Slot),
    MatrixTraps (.tld t a b darned ty rows sp acc slot) slot 2 (fun _ _ _ => acc = true ∧ ty = 3 ∧ 64 < rows.toNat + 1) ∧
    MatrixTraps (.tld t a b darned ty rows sp acc slot) slot 3 (fun w c _ =>
      ¬ (acc = true ∧ ty = 3 ∧ 64 < rows.toNat + 1) ∧ c.act ≠ lanesFull w.width)) ∧
  (∀ (t : BitVec 4) (a b : SReg) (rows : BitVec 7) (slot : Slot),
    let refused := fun (g : Group) => (g.itag t.toNat).getLsbD 7 = false ∨
      ((g.itag t.toNat).getLsbD 5 = true ∧ (g.itag t.toNat).toNat % 16 = 3 ∧ 64 < rows.toNat + 1)
    MatrixTraps (.tst t a b rows slot) slot 4 (fun _ _ g => refused g) ∧
    MatrixTraps (.tst t a b rows slot) slot 3 (fun w c g => ¬ refused g ∧ c.act ≠ lanesFull w.width)) ∧
  (∀ (d a ty : BitVec 4) (rm : BitVec 3) (c0 : Byte) (sat : Bool) (slot : Slot),
    let ok := d ≠ a ∧ 8 * c0.toNat + 128 ≤ tfK ty.toNat ∧ (tfScaled ty.toNat = true → 8 * c0.toNat % 24 = 0)
    MatrixTraps (.tcvt d a ty rm c0 sat slot) slot 2 (fun _ _ _ => ¬ ok) ∧
    MatrixTraps (.tcvt d a ty rm c0 sat slot) slot 4 (fun _ _ g => ok ∧ g.itag a.toNat ≠ 0xA2)) ∧
  (∀ (t : BitVec 4) (a : VReg) (ra : Bool) (b : SReg) (ty : BitVec 4) (n : BitVec 3) (hem sp acc form : Bool) (slot : Slot),
    MatrixTraps (.tmovVt t a ra b ty n hem sp acc form slot) slot 2 fun w _ _ =>
      (if hem then 1024 else 16384) < (sreg w.s b).toNat + 2 ^ n.toNat * w.width) ∧
  (∀ (d : VReg) (t : BitVec 4) (b : SReg) (n : BitVec 3) (hem : Bool) (slot : BitVec 3),
    MatrixTraps (.tmovTv d t b n hem slot) (some slot) 2 fun w _ _ =>
      (if hem then 1024 else 16384) < (sreg w.s b).toNat + 2 ^ n.toNat * w.width) ∧
  (∀ (i : Instr) (d a b c : BitVec 4) (hi zc : Bool) (slot : Slot), i = .mma d a b c hi zc slot ∨ i = .mmas d a b c hi zc slot →
    let paired := fun (g : Group) => pairs (g.itag a.toNat) (g.itag b.toNat) (g.itag c.toNat) hi zc
    MatrixTraps i slot 2 (fun _ _ _ => d = a ∨ d = b) ∧
    MatrixTraps i slot 4 (fun _ _ g => d ≠ a ∧ d ≠ b ∧ ¬ paired g) ∧
    MatrixTraps i slot 3 (fun w p g => d ≠ a ∧ d ≠ b ∧ paired g ∧ p.act ≠ lanesFull w.width))

/-- 09 R267, R268: an accumulator element takes nothing, and raises no flag, from rows that are zero throughout, whatever the
other operand holds. -/
def Obligations.ZeroRowsAddNothing : Prop :=
  ∀ (a b : Tile) (c0 m n : Nat), (∀ k, (a.val m k).isZero = true) ∨ (∀ k, (b.val n k).isZero = true) →
    mmaElem a b c0 m n = (c0, 0)

namespace Sys2Proof.Cert

open Host Sys2Proof.Machine

/-- A scalar written in a warp. -/
def Warp.put (w : Warp) (d : SReg) (v : Word) : Warp := { w with s := rset w.s d.toNat v }
def Warp.putPair (w : Warp) (d : SReg) (v : DWord) : Warp :=
  { w with s := rset (rset w.s d.toNat (v.setWidth 32)) (d.toNat + 1) ((v >>> 32).setWidth 32) }
def Mend.put (x : Mend) (d : SReg) (v : Word) : Mend := { x with s := rset x.s d.toNat v }

/-- Fields of PTROOT, FOLDBASE and MIGTGT that hold what is written; the others read as zero (03 Table 3-3, R81; 11 R338). -/
def ptrootOf (x : DWord) : DWord := x &&& 0xFFFF1FFFFFFFF001
def foldbaseOf (x : DWord) : DWord := x &&& 0x01FFFFFFFFFF0FFF
def migtgtOf (x : DWord) : DWord := x &&& 0x07FFFFFFFFFF0000

/-- A warp runs a form that needs privilege, as a supervisor warp. -/
def RunsPriv (i : Instr) (s : State) (wk : Nat) (w : Warp) (c : ClausePos) : Prop := Runs i s wk w c ∧ isSup wk = true

end Sys2Proof.Cert

open Host Sys2Proof Sys2Proof.Machine Sys2Proof.Cert

/-- 07 R231; 02 R41, R42; 05 R144, R145: NOP; SREAD of every selector, in a warp and on a mending core, with the latch that
selector 5 sets for selector 6, where a selector that does not exist traps with ILLEGAL_OPERAND; TFENCE goes on when no enabled flag is set and traps with its flags otherwise. -/
def Sys2Proof.Cert.SpecialValuesAndTheFlagFence : Prop :=
  (∀ s wk w c, Runs .nop s wk w c → exec .nop s = goesOn s wk w c) ∧
  (∀ s m x c, MendRuns .nop s m x c → exec .nop s = mendGoesOn s m x c) ∧
  (∀ (d : VReg) (sel : BitVec 4) s wk w c, Runs (.sread d sel) s wk w c →
    let cyc := BitVec.ofNat 64 (s.core (wkCore wk)).cycles
    let put := fun (v : Nat) => goesOn s wk { w with s := rset w.s d.toNat (BitVec.ofNat 32 v) } c
    (sel = 0 → exec (.sread d sel) s = goesOn s wk (w.putLanes false d.toNat (lanesOf c.act) fun l => l) c) ∧
    (sel = 1 → exec (.sread d sel) s = put w.ix) ∧
    (sel = 2 → exec (.sread d sel) s = put (gkIx w.gk)) ∧
    (sel = 3 → exec (.sread d sel) s = put (ctxGrid (gkGrid w.gk))) ∧
    (sel = 4 → exec (.sread d sel) s = put (match s.seamOf w.gk with
      | some (_, i) => i
      | none => 0xFFFFFFFF)) ∧
    (sel = 5 → exec (.sread d sel) s = goesOn s wk { w with
      s := rset w.s d.toNat (cyc.setWidth 32), latch := some ((cyc >>> 32).setWidth 32) } c) ∧
    (sel = 6 → exec (.sread d sel) s = goesOn s wk { w with
      s := rset w.s d.toNat (w.latch.getD ((cyc >>> 32).setWidth 32)) } c) ∧
    (sel = 7 → exec (.sread d sel) s = put w.width) ∧
    (8 ≤ sel.toNat → exec (.sread d sel) s = .next (s.trapCur 2 c.act))) ∧
  (∀ (d : VReg) s m x c,
    let cyc := BitVec.ofNat 64 x.cycles
    (MendRuns (.sread d 5) s m x c → exec (.sread d 5) s = mendGoesOn s m { x with
      s := rset x.s d.toNat (cyc.setWidth 32), latch := some ((cyc >>> 32).setWidth 32) } c) ∧
    (MendRuns (.sread d 6) s m x c → exec (.sread d 6) s = mendGoesOn s m { x with
      s := rset x.s d.toNat (x.latch.getD ((cyc >>> 32).setWidth 32)) } c) ∧
    (∀ sel : BitVec 4, sel ≠ 5 → sel ≠ 6 → MendIssues s m x c → s.opPending (.mend m) (instrOpnds (.sread d sel) true 1) = false →
      exec (.sread d sel) s = trapRes s 2)) ∧
  (∀ s wk w c, Runs .tfence s wk w c → s.flagWaits wk w.gk = false →
    (w.aflags &&& w.aenab &&& 0x3F = 0 → exec .tfence s = goesOn s wk w c) ∧
    (w.aflags &&& w.aenab &&& 0x3F ≠ 0 →
      exec .tfence s = .next (s.trapCur 5 c.act 0 (w.aflags.toNat % 64 + 256 * (w.aenab.toNat % 64))))) ∧
  (∀ s m x c, MendRuns .tfence s m x c → x.aflags &&& x.aenab &&& 0x3F = 0 → exec .tfence s = mendGoesOn s m x c)

/-- 07 R232 to R235, Table 7-9; 04 R116, R117: CSRR and CSRW of every CSR a warp has, with privilege where it is asked for:
a program warp that lacks it traps with PRIVILEGE. A CSR that does not exist, and one of a context where CTXSEL of a supervisor warp names
none, traps with ILLEGAL_OPERAND. AFLAGS is cleared bit by bit, AENAB keeps six bits, read-only CSRs ignore
a write. -/
def Sys2Proof.Cert.WarpControlRegisters : Prop :=
  (∀ (d : SReg) s wk w c g,
    let rd := fun (n : BitVec 11) (r : Res) => Runs (.csrr d n) s wk w c → exec (.csrr d n) s = r
    rd 0x000 (goesOn s wk { w with s := rset w.s d.toNat s.devid } c) ∧
    (s.flagWaits wk w.gk = false → rd 0x001 (goesOn s wk { w with s := rset w.s d.toNat w.aflags } c)) ∧
    rd 0x002 (goesOn s wk { w with s := rset w.s d.toNat w.aenab } c) ∧
    rd 0x003 (goesOn s wk { w with s := rset w.s d.toNat 0x000000FF } c) ∧
    (isSup wk = true → rd 0x013 (goesOn s wk { w with s := rset w.s d.toNat w.ctxsel } c)) ∧
    ((s.csrCtx wk w).bind (kget s.grids) = some g →
      rd 0x010 (goesOn s wk { w with s := (wrPair w.sctx d g.ptroot).s } c) ∧
      rd 0x011 (goesOn s wk { w with s := (wrPair w.sctx d g.foldbase).s } c) ∧
      rd 0x012 (goesOn s wk { w with s := rset w.s d.toNat g.savevec } c))) ∧
  (∀ (a : SReg) s wk w c ctx,
    let wr := fun (n : BitVec 11) (r : Res) => Runs (.csrw a n) s wk w c → exec (.csrw a n) s = r
    wr 0x000 (goesOn s wk w c) ∧ wr 0x003 (goesOn s wk w c) ∧
    (s.flagWaits wk w.gk = false → wr 0x001 (goesOn s wk { w with aflags := w.aflags &&& ~~~(sreg w.s a &&& 0x3F) } c)) ∧
    wr 0x002 (goesOn s wk { w with aenab := sreg w.s a &&& 0x3F } c) ∧
    (isSup wk = true → wr 0x013 (goesOn s wk { w with ctxsel := sreg w.s a } c)) ∧
    (isSup wk = true → s.csrCtx wk w = some ctx →
      wr 0x010 (goesOn (s.modGrid ctx fun g => { g with ptroot := ptrootOf (spair w.s a) }) wk w c) ∧
      wr 0x011 (goesOn (s.modGrid ctx fun g => { g with foldbase := foldbaseOf (spair w.s a) }) wk w c) ∧
      wr 0x012 (goesOn (s.modGrid ctx fun g => { g with savevec := sreg w.s a }) wk w c))) ∧
  (∀ (a : SReg) (n : BitVec 11) s wk w c, Issues s wk w c → isSup wk = false →
    (n = 0x010 ∨ n = 0x011 ∨ n = 0x012 ∨ n = 0x013 → exec (.csrw a n) s = .next (s.trapCur 6 c.act)) ∧
    (n = 0x013 → exec (.csrr a n) s = .next (s.trapCur 6 c.act))) ∧
  (∀ (a : SReg) (n : BitVec 11) s wk w c, isSup wk = true → s.ctxLive w.ctxsel.toNat = false → n = 0x010 ∨ n = 0x011 ∨ n = 0x012 →
    (Runs (.csrr a n) s wk w c → exec (.csrr a n) s = .next (s.trapCur 2 c.act)) ∧
    (Runs (.csrw a n) s wk w c → exec (.csrw a n) s = .next (s.trapCur 2 c.act))) ∧
  (∀ (a : SReg) (n : BitVec 11) s wk w c, n ∉ ([0, 1, 2, 3, 0x010, 0x011, 0x012, 0x013] : List (BitVec 11)) →
    (Runs (.csrr a n) s wk w c → exec (.csrr a n) s = .next (s.trapCur 2 c.act)) ∧
    (Runs (.csrw a n) s wk w c → exec (.csrw a n) s = .next (s.trapCur 2 c.act)))

/-- 07 R231, 07 R232, 07 R233, 07 R234, 07 Table 7-9, 02 R41, 02 R42, 05 R144, 05 R145, 04 R116, 04 R117: nOP, SREAD, TFENCE, CSRR and CSRW: the parts above. -/
def Obligations.SpecialValuesAndWarpRegisters : Prop := SpecialValuesAndTheFlagFence ∧ WarpControlRegisters

/-- 07 R232, R235, Tables 7-9, 7-11; 11 R338: the CSRs of a mending core; DEMCNT; DEMNEXT returns the
tag of the oldest record not yet returned, and 0x8000FFFF when there is none; DEMRESP and MIGCTL act on the device. A CSR that does not
exist, and one of a context where CTXSEL names none, traps with ILLEGAL_OPERAND. -/
def Obligations.MendingCoreControlRegisters : Prop :=
  (∀ (d : SReg) s m x c g,
    let rd := fun (n : BitVec 11) (v : Word) => MendRuns (.csrr d n) s m x c →
      exec (.csrr d n) s = mendGoesOn s m { x with s := rset x.s d.toNat v } c
    rd 0x000 s.devid ∧ rd 0x001 x.aflags ∧ rd 0x002 x.aenab ∧ rd 0x003 0xFF ∧ rd 0x013 x.ctxsel ∧
    rd 0x020 (BitVec.ofNat 32 x.dem.length) ∧ rd 0x022 0 ∧ rd 0x025 (BitVec.ofNat 32 (s.migStat x)) ∧
    let rd2 := fun (n : BitVec 11) (v : DWord) => MendRuns (.csrr d n) s m x c →
      exec (.csrr d n) s = mendGoesOn s m { x with s := (wrPair x.sctx d v).s } c
    rd2 0x023 x.migtgt ∧ rd2 0x024 0 ∧
    (s.ctxLive x.ctxsel.toNat = true → kget s.grids x.ctxsel.toNat = some g →
      rd2 0x010 g.ptroot ∧ rd2 0x011 g.foldbase ∧ rd 0x012 g.savevec)) ∧
  (∀ (d : SReg) s m x c,
    (MendRuns (.demnext d) s m x c → (∀ e ∈ x.dem, e.2.ret = true) →
      exec (.demnext d) s = mendGoesOn s m { x with s := rset x.s d.toNat 0x8000FFFF } c) ∧
    (∀ t r, MendRuns (.demnext d) s m x c → x.nextDem = some t → kget x.dem t = some r →
      exec (.demnext d) s = mendGoesOn s m { x with
        s := rset x.s d.toNat (BitVec.ofNat 32 t), dem := kset x.dem t { r with ret := true } } c)) ∧
  (∀ (x : Mend) (t : Nat), x.nextDem = some t → ∃ e ∈ x.dem, e.1 = t ∧ e.2.ret = false ∧
    ∀ e' ∈ x.dem, e'.2.ret = false → e.2.seq ≤ e'.2.seq) ∧
  (∀ (a : SReg) s m x c,
    let wr := fun (n : BitVec 11) (x' : Mend) (f : State → State) => MendRuns (.csrw a n) s m x c →
      exec (.csrw a n) s = .next (f (s.setMend m (x'.advance c s.insnLen)))
    let v := sreg x.s a
    let ctx := x.ctxsel.toNat
    wr 0x000 x id ∧ wr 0x003 x id ∧
    (s.ctxLive ctx = true → wr 0x010 x (fun s => s.modGrid ctx fun g => { g with ptroot := ptrootOf (spair x.s a) }) ∧
      wr 0x011 x (fun s => s.modGrid ctx fun g => { g with foldbase := foldbaseOf (spair x.s a) }) ∧
      wr 0x012 x (fun s => s.modGrid ctx fun g => { g with savevec := v })) ∧
    wr 0x001 { x with aflags := x.aflags &&& ~~~(v &&& 0x3F) } id ∧ wr 0x002 { x with aenab := v &&& 0x3F } id ∧
    wr 0x013 { x with ctxsel := v } id ∧ wr 0x020 x id ∧ wr 0x021 x id ∧ wr 0x025 x id ∧
    wr 0x022 x (fun s => s.demResp m (v.setWidth 16).toNat (v.getLsbD 16) (v >>> 24).toNat) ∧
    wr 0x023 { x with migtgt := migtgtOf (spair x.s a) } id ∧ wr 0x024 x (fun s => s.migCtl m (spair x.s a).toNat)) ∧
  (∀ (a : SReg) (n : BitVec 11) s m x c,
    n ∉ ([0, 1, 2, 3, 0x010, 0x011, 0x012, 0x013, 0x020, 0x021, 0x022, 0x023, 0x024, 0x025] : List (BitVec 11)) ∨
      (n ∈ ([0x010, 0x011, 0x012] : List (BitVec 11)) ∧ s.ctxLive x.ctxsel.toNat = false) →
    (MendRuns (.csrr a n) s m x c → exec (.csrr a n) s = trapRes s 2) ∧
    (MendRuns (.csrw a n) s m x c → exec (.csrw a n) s = trapRes s 2))

/-- 07 R236 to R238: MBX sends sixteen scalars to a core, slot and position; MBX receives take the oldest message for the warp,
or report that there is none; SVREQ sends eight scalars, its number and the grid to the core's supervisor warp. -/
def Obligations.MessagesAreSentAndReceived : Prop :=
  (∀ (d a : SReg) (slot : Slot) s wk w c, Runs (.mbxSend d a slot) s wk w c → slotFull w (slot.map (·.toNat)) = false →
    let x := sreg w.s d
    let tgt := (x.extractLsb' 8 4).toNat * 8 + (x.extractLsb' 12 3).toNat
    let words := (List.range 16).map fun i => rget w.s (a.toNat + i)
    (x.toNat < 2 ^ 15 → exec (.mbxSend d a slot) s =
      goesOn ((s.publish w).send wk w.gk w.ix (x.setWidth 8).toNat tgt (senderStatus wk) words (slot.map (·.toNat))) wk
        (w.up (slot.map (·.toNat))) c) ∧
    (2 ^ 15 ≤ x.toNat → exec (.mbxSend d a slot) s = .next (s.trapCur 2 c.act))) ∧
  (∀ (d c : SReg) (slot : BitVec 3) s wk w p, Runs (.mbxRecv d c slot) s wk w p → slotFull w (some slot.toNat) = false →
    let box := (s.core (wkCore wk)).mbox
    let lane := (lanesOf p.act).headD 0
    let res := fun (i : Nat) (x : Word) => Elem.known lane 4 i (x.setWidth 64)
    ((∀ m ∈ box, m.tgt ≠ wk % 128) → exec (.mbxRecv d c slot) s =
      issued s wk w p (s.warpAcc wk w p (.leaseRd 0) [res c.toNat 0] (some slot.toNat))) ∧
    (∀ before m after, box = before ++ m :: after → (∀ y ∈ before, y.tgt ≠ wk % 128) → m.tgt = wk % 128 →
      exec (.mbxRecv d c slot) s = issued (s.modCore (wkCore wk) fun k => { k with mbox := before ++ after }) wk w p
        (s.warpAcc wk w p (.leaseRd 0) (((List.range 16).zip m.words).map (fun e => res (d.toNat + e.1) e.2) ++
          [res c.toNat m.status]) (some slot.toNat)))) ∧
  (∀ (a : SReg) (n : BitVec 11) s wk w c, Runs (.svreq a n) s wk w c →
    exec (.svreq a n) s = goesOn ((s.publish w).send wk w.gk w.ix (wkCore wk) 120 (senderStatus wk)
      ((List.range 8).map (fun i => rget w.s (a.toNat + i)) ++
        [n.setWidth 32, BitVec.ofNat 32 (ctxGrid (gkGrid w.gk)), 0, 0, 0, 0, 0, 0]) none) wk w c)

/-- 02 R40, R46, R47; 07 R239, R240: XGROW takes blocks that fit at once and waits in its quad's queue otherwise; XDROP
gives back the highest ones; a number of blocks out of range traps with ILLEGAL_OPERAND, as does either while a non-blocking request is not
granted. SEAMJ and SEAMD join and leave the seam; that SEAMJ joins again after SEAMD is the model's choice (log 90). -/
def Obligations.BlocksAndSeamMembership : Prop :=
  (∀ (nb : Bool) (k : BitVec 3) s wk w c, Runs (.xgrow nb k) s wk w c → k ≠ 0 → w.x + k.toNat ≤ 6 → w.xpend = 0 →
    let quad := slotQuad (wkSlot wk)
    let w1 := w.advance c s.insnLen
    let free := (∀ r ∈ (s.core (wkCore wk)).xq, r.quad ≠ quad) ∧ s.blocksFit (wkCore wk) quad wk k.toNat = true
    (free → nb = false → exec (.xgrow nb k) s = .next (s.setWarp wk { w1 with x := w1.x + k.toNat, park := .none })) ∧
    (free → nb = true → exec (.xgrow nb k) s =
      .next (s.setWarp wk { w1 with x := w1.x + k.toNat, pend := w1.pend ||| 0x20000, xpend := 0 })) ∧
    (¬ free → exec (.xgrow nb k) s =
      .next ((s.setWarp wk (if nb then { w1 with xpend := k.toNat } else { w1 with park := .xgrow k.toNat })).modCore (wkCore wk)
        fun x => { x with xq := x.xq ++ [{ quad := quad, wk := wk, k := k.toNat, nb := nb }] }))) ∧
  (∀ (nb : Bool) (k : BitVec 3) s wk w c, Runs (.xgrow nb k) s wk w c → k = 0 ∨ 6 < w.x + k.toNat ∨ w.xpend ≠ 0 →
    exec (.xgrow nb k) s = .next (s.trapCur 2 c.act)) ∧
  (∀ (k : BitVec 3) s wk w c, Runs (.xdrop k) s wk w c → k ≠ 0 → k.toNat ≤ w.x → w.xpend = 0 →
    s.regWait wk w [{ vec := true, first := 32 + 16 * (w.x - k.toNat), n := 16 * k.toNat, align := 1 }] = false →
    exec (.xdrop k) s = goesOn s wk { w with
      x := w.x - k.toNat, v := w.v.filter fun e => e.1 < (32 + 16 * (w.x - k.toNat)) * 128 } c) ∧
  (∀ (k : BitVec 3) s wk w c, Runs (.xdrop k) s wk w c → k = 0 ∨ w.x < k.toNat ∨ w.xpend ≠ 0 →
    exec (.xdrop k) s = .next (s.trapCur 2 c.act)) ∧
  (∀ s wk w c r, Runs .seamj s wk w c → s.seamOf w.gk = some r →
    exec .seamj s = goesOn (s.modGroup w.gk fun g => { g with joins := g.joins ||| BitVec.ofNat 256 (2 ^ w.ix) }) wk
      { w with joined := true } c) ∧
  (∀ s wk w c, Runs .seamj s wk w c → s.seamOf w.gk = none → exec .seamj s = .next (s.trapCur 2 c.act)) ∧
  (∀ s wk w c, Runs .seamd s wk w c →
    (w.joined = false → exec .seamd s = goesOn s wk w c) ∧
    (w.joined = true → s.seamPending wk = false → exec .seamd s =
      .next (((s.setWarp wk ({ w with joined := false }.advance c s.insnLen)).modGroup w.gk fun g =>
        { g with joins := g.joins &&& ~~~(BitVec.ofNat 256 (2 ^ w.ix)), dets := g.dets ||| BitVec.ofNat 256 (2 ^ w.ix) }).memberDetach w.gk)))

/-- 04 R116, R117; 07 R242 to R244; 03 R68: PGINV, LEASEOP and HALT need privilege; PGINV drops the context's cached translations,
LEASEOP reads and writes a lease record, HALT stops a mending core; a number outside the lease table traps. That the context of PGINV is
the one that CTXSEL names is the model's reading (log 30). -/
def Obligations.PrivilegedForms : Prop :=
  (∀ (a b : SReg) (slot : Slot) (q : BitVec 3) s wk w c, Issues s wk w c → isSup wk = false →
    ∀ i ∈ [Instr.pginvPage a slot, .pginvCtx slot, .leaseopRd a b q, .leaseopWr a b slot, .halt],
      exec i s = .next (s.trapCur 6 c.act)) ∧
  (∀ (a : SReg) (slot : Slot) s wk w c, s.ctxLive w.ctxsel.toNat = true → slotFull w (slot.map (·.toNat)) = false →
    let ctx := w.ctxsel.toNat
    let va := (spair w.s a).toNat
    (RunsPriv (.pginvPage a slot) s wk w c → exec (.pginvPage a slot) s = issued (s.dropXlat ctx (some va)) wk w c
      (s.warpAcc wk w c (.pginv ctx (some (s.pginvSpan ctx va))) [] (slot.map (·.toNat)))) ∧
    (RunsPriv (.pginvCtx slot) s wk w c → exec (.pginvCtx slot) s = issued (s.dropXlat ctx none) wk w c
      (s.warpAcc wk w c (.pginv ctx none) [] (slot.map (·.toNat))))) ∧
  (∀ (a : SReg) (slot : Slot) s m x c, s.ctxLive x.ctxsel.toNat = true →
    let ctx := x.ctxsel.toNat
    let va := (spair x.s a).toNat
    let wait := fun (t : State) (span : Option (Nat × Nat)) =>
      Outcome.next ((t.setMend m (x.advance c s.insnLen)).addOp (s.mendAcc m x (.pginv ctx span) []))
    (MendRuns (.pginvPage a slot) s m x c →
      exec (.pginvPage a slot) s = wait (s.dropXlat ctx (some va)) (some (s.pginvSpan ctx va))) ∧
    (MendRuns (.pginvCtx slot) s m x c → exec (.pginvCtx slot) s = wait (s.dropXlat ctx none) none)) ∧
  (∀ (d a b : SReg) (q : BitVec 3) (slot : Slot) s wk w c,
    let l := (sreg w.s a).toNat
    let lane := (lanesOf c.act).headD 0
    let w4 := (rget w.s (b.toNat + 3)) ++ (rget w.s (b.toNat + 2)) ++ (rget w.s (b.toNat + 1)) ++ (rget w.s b.toNat)
    (RunsPriv (.leaseopRd d a q) s wk w c → l < 32768 → slotFull w (some q.toNat) = false → exec (.leaseopRd d a q) s =
      issued s wk w c (s.warpAcc wk w c (.leaseRd l) ((List.range 4).map fun i =>
        Elem.known lane 4 (d.toNat + i) (((s.lease l).bits.extractLsb' (32 * i) 32).setWidth 64)) (some q.toNat))) ∧
    (RunsPriv (.leaseopWr a b slot) s wk w c → l < 32768 → slotFull w (slot.map (·.toNat)) = false → exec (.leaseopWr a b slot) s =
      issued (s.leaseWrite l (w4 &&& ~~~(0x1F#128 <<< 114))) wk w c (s.warpAcc wk w c .leaseWr [] (slot.map (·.toNat)))) ∧
    (RunsPriv (.leaseopRd d a q) s wk w c → 32768 ≤ l → exec (.leaseopRd d a q) s = .next (s.trapCur 2 c.act)) ∧
    (RunsPriv (.leaseopWr a b slot) s wk w c → 32768 ≤ l → exec (.leaseopWr a b slot) s = .next (s.trapCur 2 c.act))) ∧
  (∀ (d a b : SReg) (q : BitVec 3) (slot : Slot) s m x c,
    let l := (sreg x.s a).toNat
    let x4 := (rget x.s (b.toNat + 3)) ++ (rget x.s (b.toNat + 2)) ++ (rget x.s (b.toNat + 1)) ++ (rget x.s b.toNat)
    (MendRuns (.leaseopRd d a q) s m x c → l < 32768 → exec (.leaseopRd d a q) s = mendGoesOn s m { x with
      s := (List.range 4).foldl (fun r i => rset r (d.toNat + i) ((s.lease l).bits.extractLsb' (32 * i) 32)) x.s } c) ∧
    (MendRuns (.leaseopWr a b slot) s m x c → l < 32768 → exec (.leaseopWr a b slot) s =
      .next ((s.setMend m (x.advance c s.insnLen)).leaseWrite l (x4 &&& ~~~(0x1F#128 <<< 114)))) ∧
    (MendRuns (.leaseopRd d a q) s m x c → 32768 ≤ l → exec (.leaseopRd d a q) s = trapRes s 2) ∧
    (MendRuns (.leaseopWr a b slot) s m x c → 32768 ≤ l → exec (.leaseopWr a b slot) s = trapRes s 2)) ∧
  (∀ s m x c, MendRuns .halt s m x c → exec .halt s = .next (s.setMend m { x.advance c s.insnLen with halted := true })) ∧
  (∀ s wk w c, RunsPriv .halt s wk w c → exec .halt s = .next (s.trapCur 2 c.act))

/-- 15 R379, R380, R382: a program warp's trap posts one record of sixteen words at its core, each as Table 15-2 has it, with the next
SEQ of its partition, DISP 1 and the number of records lost before it, while fewer than 64 wait there; a record that finds 64 is lost
and counted, and SEQ advances all the same. The trap kills its context with STATUS 0x0100 + cause. -/
def Sys2Proof.Cert.ProgramTrapsRecordAndKill : Prop :=
  ∀ (s : State) (wk : Nat) (w : Warp) (d : Grid) (t : TrapInfo), kget s.warps wk = some w → isSup wk = false → w.handler = false →
    kget s.grids (gkGrid w.gk) = some d → d.killed = none → s.ctl.traps = none →
    let s' := s.takeTrap wk t
    let old := s.core (wkCore wk)
    let new := s'.core (wkCore wk)
    (s'.part d.part).seq = (s.part d.part).seq + 1 ∧
    (kget s'.grids (gkGrid w.gk)).map (·.killed) = some (some (0x100 + t.cause)) ∧
    (64 ≤ old.traps.length → new.traps = old.traps ∧ new.drops = old.drops + 1) ∧
    (old.traps.length < 64 → new.drops = 0 ∧ ∃ r : List Word, new.traps = old.traps ++ [r] ∧ r.length = 16 ∧
      let word := fun (i : Nat) => r.getD i 0
      word 0 = BitVec.ofNat 32 (gkGrid w.gk) ∧ word 1 = BitVec.ofNat 32 (gkIx w.gk) ∧
      word 2 = BitVec.ofNat 32 (w.ix % 256 + 2 ^ 17 * wkPos wk + 2 ^ 20 * wkSlot wk + 2 ^ 24 * wkCore wk) ∧
      word 3 = BitVec.ofNat 32 (t.detail % 2 ^ 18 + 2 ^ 20 * (t.origin % 16) + 2 ^ 24 * t.cause) ∧
      word 4 = (s.part d.part).seq ∧ word 5 = BitVec.ofNat 32 (1 + 2 ^ 16 * old.drops) ∧
      word 6 = BitVec.ofNat 32 t.insn.pc ∧ word 7 = BitVec.ofNat 32 t.insn.word ∧ word 8 = BitVec.ofNat 32 t.insn.ext ∧
      word 9 = BitVec.ofNat 32 t.aux ∧ word 10 = BitVec.ofNat 32 t.va ∧ word 11 = BitVec.ofNat 32 (t.va / 2 ^ 32) ∧
      ∀ i, i < 4 → word (12 + i) = t.lanes.extractLsb' (32 * i) 32)

/-- 15 R382 to R384: killing a context takes its warps, demand events and warp-issued operations out of the machine and keeps
its first STATUS; memory changes by its open linings and folds alone, and no other grid is killed. -/
def Sys2Proof.Cert.KillsRemoveTheContext : Prop :=
  ∀ (s : State) (ctx status : Nat) (g : Grid), kget s.grids ctx = some g →
    (g.killed ≠ none → s.killGrid ctx status = s) ∧
    (g.killed = none →
      let t := s.killGrid ctx status
      (kget t.grids ctx).map (·.killed) = some (some status) ∧
      (∀ gk r, kget s.groups gk = some r → gkGrid gk = ctx → ∀ e ∈ r.wks, kget t.warps e.2 = none) ∧
      (∀ e ∈ t.ops, ∀ wk, e.2.who = .warp wk → e.2.ctx ≠ ctx) ∧
      (∀ m ∈ t.mends, ∀ e ∈ m.2.dem, e.2.ctx ≠ ctx) ∧
      (g.linings = [] → g.folds = [] → t.mem = s.mem) ∧
      (∀ c, c ≠ ctx → (kget t.grids c).map (·.killed) = (kget s.grids c).map (·.killed)))

/-- 15 R379, 15 R380, 15 R382, 15 R383, 15 R384: a trap of a warp records what the manual says and kills its context alone: the parts above. That the removal of the
context takes one step is the model's choice (log 12). -/
def Obligations.TrapsRecordAndKill : Prop := ProgramTrapsRecordAndKill ∧ KillsRemoveTheContext

/-- 15 R381; 12 R361: a trap of a mending core stops it at the trapping instruction, reports cause and offset, and writes its
record at 0x9000 of its SRAM alone; a restart with all ones goes on there, one with an offset goes there. -/
def Obligations.MendingCoreTrapsAndRestarts : Prop :=
  (∀ (s : State) (m : Nat) (x : Mend) (t : TrapInfo), kget s.mends m = some x → x.sram.wf = true →
    ∃ y, kget (s.takeTrapMend m t).mends m = some y ∧ y.halted = true ∧ y.trapped = true ∧ y.cause = BitVec.ofNat 8 t.cause ∧
      y.mcpc = BitVec.ofNat 32 t.insn.pc ∧ y.pc = t.insn.hdr ∧ y.clause = none ∧
      y.resume = (if t.insn.pc = t.insn.hdr then none else some t.insn.pc) ∧
      mget y.sram 0x900F = BitVec.ofNat 8 t.cause ∧ y.sram.wf = true ∧
      (∀ a, a < 0x9000 ∨ 0x9040 ≤ a → mget y.sram a = mget x.sram a) ∧ y.s = x.s ∧ y.code = x.code ∧ y.dem = x.dem ∧
      (s.takeTrapMend m t).mem = s.mem ∧ (s.takeTrapMend m t).warps = s.warps ∧
      (∀ k, k ≠ m → kget (s.takeTrapMend m t).mends k = kget s.mends k)) ∧
  (∀ (x : Mend) (off : Word),
    (x.halted = false → x.restart off = x) ∧
    (x.halted = true → off = 0xFFFFFFFF → x.restart off = { x with halted := false, trapped := false }) ∧
    (x.halted = true → off ≠ 0xFFFFFFFF →
      x.restart off = { x with halted := false, trapped := false, clause := none, resume := none, pc := off.toNat }))

open Host Sys2Proof Sys2Proof.Machine Sys2Proof.Cert

/-- 02 R26, R27, R32, R40, R52, R53; 06 R159: a window goes to the first slot in the arbiter's order that holds ready warps, which
issue in ascending position; it counts as granted once a warp of it issues, and goes on to the next slot when none does; an
expired RCW parks its lanes at the clause after it with q 0, at the latest with the next window of its core; a parked WANY resumes at the
handler of the binding it selects; the oldest request of a quad is granted once its blocks fit. That cycles pass by the count of a
WINDOW_GRANT (log 6), that a quad whose pointer has not moved yet starts at its first slot (log 3) and that leases expire on their
owner's count (log 91) are the model's choices. -/
def Obligations.WindowsTimeoutsAndGrants : Prop :=
  (∀ (s : State) (core quad el : Nat), core < 256 → quad < 4 →
    let s1 := ((s.modCore core fun c => { c with cycles := c.cycles + el }).rcwExpire core).wanyAll (fun k => wkCore k == core) el
    exec (.windowGrant (.quad core quad) el) s = .next (s1.openWindow core quad (s1.grantOrder core quad))) ∧
  (∀ (s : State) (core k : Nat) (w : Warp), ksorted s.warps = true → kget s.warps k = some w →
    let past := fun (r : OpenRcw) => wkCore k = core ∧ r.bound ≠ 0 ∧ r.bound < r.base + ((s.core core).cycles - r.since) ∧ s.groupIssues w = true
    (∀ r, w.rcw = some r → past r → kget (s.rcwExpire core).warps k = some (w.rcwEnd r false)) ∧
    ((∀ r, w.rcw = some r → ¬ past r) → kget (s.rcwExpire core).warps k = some w) ∧
    (s.rcwExpire core).mem = s.mem ∧ (s.rcwExpire core).groups = s.groups) ∧
  (∀ (s : State) (core el : Nat), (∀ x ∈ s.warps, wkCore x.1 = core → x.2.inWany = false ∨ x.2.hold ≠ none ∨ s.groupIssues x.2 = false) →
    (∀ x ∈ s.warps, kget s.warps x.1 = some x.2) → s.wanyAll (fun k => wkCore k == core) el = s) ∧
  (∀ (s : State) (core quad slot : Nat) (oot : Bool) (before after : List (Nat × Bool)),
    (∀ y ∈ before, s.readyIn core y.1 = []) → s.readyIn core slot ≠ [] →
    s.openWindow core quad (before ++ (slot, oot) :: after) = { s with ctl := { s.ctl with
      issue := s.ctl.issue ++ (s.readyIn core slot).map Agent.warp,
      grant := some { core := core, quad := quad, slot := slot, oot := oot, rest := after } } }) ∧
  (∀ (s : State) (core quad : Nat),
    let p := kgetD (s.core core).ptrs quad 3
    let turns := (List.range 4).map fun i => (4 * quad + (p + 1 + i) % 4, false)
    s.grantOrder core quad = turns ∨ (s.grantOrder core quad = (15, true) :: turns ∧ quad = 3 ∧ (s.core core).oot = false)) ∧
  (∀ (s : State) (g : Grant), s.ctl.issue = [] → s.ctl.grant = some g → s.nextWindow = s.openWindow g.core g.quad g.rest) ∧
  (∀ (s t : State) (wk : Nat) (g : Grant), t.ctl.cur = some (.warp wk) → t.ctl.grant = some g →
    (s.hasIssued t wk = false → s.countGrant t = s) ∧
    (s.hasIssued t wk = true → let u := s.countGrant t
      u.ctl.grant = none ∧ u.mem = s.mem ∧ u.groups = s.groups ∧ u.ops = s.ops ∧ (∀ c, c ≠ g.core → kget u.cores c = kget s.cores c) ∧
      (g.oot = false → kget (u.core g.core).ptrs g.quad = some (g.slot % 4)) ∧ (g.oot = true → (u.core g.core).oot = true) ∧
      (∀ k w v, kget s.warps k = some w → kget t.warps k = some v → ∃ w', kget u.warps k = some w' ∧
        w' = (if wkCore k = g.core ∧ slotQuad (wkSlot k) = g.quad ∧ v.yield = true then { w with yield := false } else w)))) ∧
  (∀ (s : State) (m el : Nat) (x : Mend), kget s.mends m = some x → x.halted = false →
    let t := (s.setMend m { x with cycles := x.cycles + el }).expireLeases m
    exec (.windowGrant (.mend m) el) s = .next { t with ctl := { t.ctl with issue := t.ctl.issue ++ [Agent.mend m] } }) ∧
  (∀ (s : State) (wk : Nat) (w : Warp) (r : OpenRcw), kget s.warps wk = some w → w.rcw = some r → r.bound ≠ 0 →
    r.bound ≤ r.base + ((s.core (wkCore wk)).cycles - r.since) → s.groupIssues w = true →
    exec (.rcwTimeout wk) s = .next (s.setWarp wk (w.rcwEnd r false)) ∧
    (w.rcwEnd r false).rcw = none ∧ (w.rcwEnd r false).q = w.q &&& ~~~(BitVec.ofNat 4 (2 ^ r.q)) ∧
    (w.rcwEnd r false).live = w.live ∧ (w.rcwEnd r false).v = w.v ∧ (w.rcwEnd r false).s = w.s) ∧
  (∀ (s : State) (wk : Nat) (w : Warp) (m : Byte) (act : Lanes) (base since i : Nat) (insn : Insn), kget s.warps wk = some w →
    w.park = .wany m act base since insn → w.hold = none → s.groupIssues w = true →
    let el := base + ((s.core (wkCore wk)).cycles - since)
    let s1 := fun (v : Nat) => (s.setWarp wk { w with won := some (i, v) }).begin (.warp wk) insn
    let goes := fun (t : State) (v : Nat) => t.setWarp wk { w.consume (w.eb64 i) with
      s := rset (rset w.s 0 (BitVec.ofNat 32 i)) 1 (BitVec.ofNat 32 v)
      park := .none, clause := none, won := none, pcs := setPcs w.pcs (lanesOf (act &&& w.live)) (ebHandler (w.eb64 i)) }
    (∀ v, w.won = some (i, v) → (s.begin (.warp wk) insn).checkTarget w (ebHandler (w.eb64 i)) = .ok →
      exec (.wanyResume wk) s = .next (goes (s.begin (.warp wk) insn) v)) ∧
    (w.won = none → s.wanySelect wk w m el = some i →
      let v := s.ebValue wk w (w.eb64 i) el
      (s1 v).checkTarget { w with won := some (i, v) } (ebHandler (w.eb64 i)) = .ok →
      exec (.wanyResume wk) s = .next (goes (s1 v) v) ∧
      ((∃ j ∈ w.selected m, ebKind (w.eb64 j) = 5 ∧ ebSel (w.eb64 j) ≤ el) → exec (.wanyTimeout wk) s = .next (goes (s1 v) v)))) ∧
  (∀ (s : State) (core quad : Nat) (before after : List XReq) (r : XReq) (w : Warp), (s.core core).xq = before ++ r :: after →
    (∀ y ∈ before, y.quad ≠ quad) → r.quad = quad → s.blocksFit core quad r.wk r.k = true → kget s.warps r.wk = some w →
    exec (.registerGrant core quad) s = .next ((s.modCore core fun c => { c with xq := before ++ after }).setWarp r.wk
      (if r.nb then { w with x := w.x + r.k, pend := w.pend ||| 0x20000, xpend := 0 } else { w with x := w.x + r.k, park := .none })))

/-- 04 R99; 07 R191, R209, R210, R236, R237; 08 R246, R248; 15 R380 (that a later batch writes its completion word while earlier ones
are unfinished is the model's reading, log 73): an access whose elements are all at home lands its
registers in one step and lowers its slot; an element is served at its home; a sector leaves an L1; a batch whose operations are
complete writes its completion word, and the oldest then finishes; a message, and a trap record, enter a mailbox that has room. -/
def Obligations.ResultsMessagesAndBatchesLand : Prop :=
  (∀ (s : State) (k : Nat) (o : Op) (a : Acc), kget s.ops k = some o → o.kind = .acc a → a.dest.isSome = true →
    (∀ e ∈ o.elems, e.done = true) → o.hold = [] → o.want = [] → s.acqEarly k o = false →
    s.landOp k = s.finishOp k o) ∧
  (∀ (s : State) (k i : Nat) (o : Op), kget s.ops k = some o → o.isAcc = true →
    exec (.registerResultLanding k (some i)) s = .next (((s.serve k i).pumpOp k).settleOp k) ∧
    exec (.registerResultLanding k none) s = .next (((s.serveWhere k fun e => o.opened e).pumpOp k).landOp k) ∧
    exec (.appliedAtHome k i) s = .next (((s.serve k i).pumpOp k).settleOp k)) ∧
  (∀ (s : State) (wk k : Nat) (o : Op) (w : Warp) (v : Bool), kget s.warps wk = some w → o.who = .warp wk →
    (∃ a, o.kind = .acc a ∧ a.dest = some v ∧ o.acqScope = none) → (∀ x ∈ s.ops, x.1 ≠ k → x.2.who ≠ .warp wk) → ksorted s.ops = true →
    s.finishOp k o = { s with ops := kdel s.ops k }.setWarp wk ((w.takeResults o v).down o.slot)) ∧
  (∀ (s : State) (core sector : Nat), core < 256 → ∃ t, exec (.l1SectorDrop core sector) s = .next t ∧ t.mem = s.mem ∧
    t.warps = s.warps ∧ (t.core core).l1 = kdel (s.core core).l1 sector ∧ ∀ c, c ≠ core → kget t.cores c = kget s.cores c) ∧
  (∀ (s : State) (wk : Nat) (w : Warp) (b : Batch) (r : List Batch), kget s.warps wk = some w → w.sealed = b :: r →
    s.batchOps wk b.seq = false →
    (b.cw = none → exec (.batchFinish wk) s = .next ((s.setWarp wk { w with sealed := r }).tryRetire wk)) ∧
    (∀ c, b.cw = some c → w.handler = false → exec (.batchFinish wk) s =
      .next (((s.setWarp wk { w with sealed := { b with cw := none } :: r }).modGroup w.gk fun g => { g with pub := true }).addOp
        (cwOp wk w b c)))) ∧
  (∀ (s : State) (wk : Nat) (w : Warp) (early late : List Batch) (b : Batch) (c : ComplWord), kget s.warps wk = some w →
    w.sealed = early ++ b :: late → early ≠ [] → (∀ e ∈ early, s.batchOps wk e.seq = true) → s.batchOps wk b.seq = false → b.cw = some c →
    w.handler = false → exec (.batchFinish wk) s =
      .next (((s.setWarp wk { w with sealed := early ++ { b with cw := none } :: late }).modGroup w.gk fun g => { g with pub := true }).addOp
        (cwOp wk w b c))) ∧
  (∀ (s : State) (before after : List Send) (x : Send) (w : Warp), s.sends = before ++ x :: after →
    (∀ y ∈ before, ¬ (y.gk = x.gk ∧ y.ix = x.ix)) → kget s.warps (x.core * 128 + x.msg.tgt) = some w → w.handler = false →
    (s.core x.core).mbox.length < 16 → ∃ t, exec (.mailboxArrival before.length) s = .next t ∧
      t.sends = before ++ after ∧ (t.core x.core).mbox = (s.core x.core).mbox ++ [x.msg] ∧ t.mem = s.mem ∧
      (∃ w', kget t.warps (x.core * 128 + x.msg.tgt) = some w' ∧ w'.pend = w.pend ||| 0x10000)) ∧
  (∀ (s : State) (core : Nat) (ws : List Word) (r : List (List Word)) (w : Warp), (s.core core).traps = ws :: r →
    (s.core core).mbox.length < 16 → kget s.warps (supKey core) = some w → ∃ t, exec (.trapRecordDelivery core) s = .next t ∧
      (t.core core).traps = r ∧ t.mem = s.mem ∧
      (t.core core).mbox = (s.core core).mbox ++ [{ status := recordStatus ws, tgt := 120, words := ws }] ∧
      (∃ w', kget t.warps (supKey core) = some w' ∧ w'.pend = w.pend ||| 0x10000))

/-- 03 R76, R77; 07 R219, R235; 09 R275, R276, R285 to R288; 15 R390: a demand record returned is answered by a replay or a
decline, which traps the warp of a load that it held with the cause; a record that waits is posted in the lowest free entry; an asynchronous
operation advances; a free pipe starts the entry that may start, and an entry without requests does its work on the tiles and leaves; a
group stuck for 65,536 cycles is recorded and killed. That of a seam the members of this device alone are seen is the model's
choice (log 98). -/
def Obligations.DemandAnswersEnginesAndPipes : Prop :=
  (∀ (s : State) (m tag : Nat) (x : Mend) (r : DemRec), kget s.mends m = some x → kget x.dem tag = some r → ksorted x.dem = true →
    exec (.demrespReplay m tag) s = .next (s.demReplay (m * 1024 + tag)) ∧
    (∀ cause : Byte, 0x10 ≤ cause.toNat → cause.toNat ≤ 0x17 →
      exec (.demrespDecline m tag cause) s = .next (s.demDecline (m * 1024 + tag) cause.toNat)) ∧
    (∀ cause : Byte, cause.toNat < 0x10 ∨ 0x17 < cause.toNat → exec (.demrespDecline m tag cause) s = .next s) ∧
    (tag < 1024 → s.ops = [] → s.fab.inHeld = [] → (∀ w ∈ s.warps, w.2.hold = none) →
      s.demReplay (m * 1024 + tag) = s.setMend m { x with dem := kdel x.dem tag }) ∧
    (∀ (cause k wk ty : Nat) (l1 v : Bool) (o : Op), tag < 1024 → s.ops = [(k, o)] → s.fab.inHeld = [] →
      (∀ w ∈ s.warps, w.2.hold = none) → o.who = .warp wk → o.kind = .acc (.load l1 ty v) → o.hold = [m * 1024 + tag] → o.want = [] →
      o.fails = [] → o.elems ≠ [] →
      (∀ e ∈ o.elems, e.place = none ∧ e.sent = false ∧ e.done = false ∧ s.lined o.ctx e.va false / 2 ^ 16 = r.page) →
      s.demDecline (m * 1024 + tag) cause =
        ({ s.setMend m { x with dem := kdel x.dem tag } with ops := [] }).together fun s => s.takeTrap wk
          { cause := cause, origin := 0, detail := r.reason + 16 * r.kind, aux := 0, lanes := lanesMask (o.elems.map Elem.lane),
            va := lowestVa (o.elems.map fun (e : Elem) => (e.lane, e.va)), insn := o.insn })) ∧
  (∀ (s : State) (m : Nat) (x : Mend), kget s.mends m = some x → x.dem.length < 1024 →
    exec (.demandRecordPost m) s = .next s.postWaiting) ∧
  (∀ (s : State) (n : Note) (x : Mend) (tag : Nat), s.mem.notes = [n] → s.ops = [] → s.fab.inHeld = [] →
    (∀ w ∈ s.warps, w.2.hold = none) → kget s.mends n.mend = some x → s.joined n.ctx n.wish = none →
    tag < 1024 → (∀ j, j < tag → j ∈ x.dem.map (·.1)) → tag ∉ x.dem.map (·.1) →
    s.postWaiting.mem.notes = [] ∧ ∃ y r, kget s.postWaiting.mends n.mend = some y ∧ kget y.dem tag = some r ∧ r.ctx = n.ctx ∧
      r.page = n.wish.va / 2 ^ 16 ∧ r.reason = n.wish.reason ∧ r.kind = n.wish.kind ∧ r.va = n.wish.va ∧ r.ret = false) ∧
  (∀ (s : State) (k n : Nat) (o : Op), kget s.ops k = some o → n ≠ 0 →
    exec (.asyncOpComplete k n) s = .next (s.asyncRun k n) ∧ exec (.asyncOpComplete k 0) s = .next (s.asyncRun k o.asyncFuel)) ∧
  (∀ (s : State) (k n : Nat) (o : Op) (w : AWork) (e b : Nat), kget s.ops k = some o → o.hold = [] → o.want = [] →
    o.kind = .async w w.total [] [] e b → s.bufVals o w ≠ none → w ≠ .lnopen → (∀ r st f q np, w ≠ .turn r st f q np) →
    ksorted s.ops = true → s.asyncRun k (n + 1) = s.asyncDone k o) ∧
  (∀ (s : State) (cl pipe gk : Nat) (e : MEnt), pipe ≤ 4 → kget (s.cluster cl).pipes pipe = none →
    s.pickEntry cl pipe = some (gk, e) → e.op = none →
    exec (.matrixPipeStart cl pipe) s = .next ((s.modCluster cl fun c =>
      { c with pipes := kset c.pipes pipe (gk, e.id), rr := kset c.rr pipe gk }).modEnt gk e.id fun e => { e with pipe := some pipe })) ∧
  (∀ (s : State) (cl pipe rows gk id : Nat) (g : Group) (e : MEnt), kget (s.cluster cl).pipes pipe = some (gk, id) →
    kget s.groups gk = some g → g.mq.find? (fun x => x.id == id) = some e → e.op = none →
    let go := fun (g' : Group) (fl : Nat) => exec (.matrixEntryComplete cl pipe rows) s = .next ((s.setGroup gk g').endEntry cl pipe gk e fl)
    (∀ t k, e.work = .tzero t k → go (g.putTile t { Tile.empty with tag := if k = 0 then 0xA2 else if k = 1 then 0xA3 else 0 }) 0) ∧
    (∀ d a ty rm c sat, e.work = .tcvt d a ty rm c sat →
      go (g.putTile d (tcvtTile (g.tile d) (g.tile a) ty rm c sat).1) (tcvtTile (g.tile d) (g.tile a) ty rm c sat).2) ∧
    (∀ t ty hem sp acc form ws, e.work = .tmovVt t ty hem sp acc form ws →
      go (g.putTile t (tmovTile (g.tile t) ty hem sp acc form ws)) 0) ∧
    (∀ d a b c hi zc, e.work = .mma d a b c hi zc →
      go (g.putTile d (mmaTile (g.tile a) (g.tile b) (g.tile c) hi zc).1) (mmaTile (g.tile a) (g.tile b) (g.tile c) hi zc).2) ∧
    (∀ t hem dst, e.work = .tmovTv t hem dst → exec (.matrixEntryComplete cl pipe rows) s =
      .next ((s.modWarp e.wk (tmovRegs (g.tile t) hem dst)).endEntry cl pipe gk e 0))) ∧
  (∀ (s : State) (gk since mask : Nat) (g : Group), kget s.groups gk = some g → g.stuck = some since → s.stuckMask g = some mask →
    since + 65536 ≤ (s.core (g.cores.headD 0)).cycles → s.seamStuck gk = true →
    exec (.stuckGroupTimeout gk) s =
      .next ((s.recordGroup gk (TrapInfo.sched 0x30 mask 0) 1).killGrid (gkGrid gk) 0x230))

open Host Sys2Proof Sys2Proof.Machine Sys2Proof.Cert

/-- 11 R340 to R342; 03 R80: a valid outbound slot of its code is sent once and its VALID falls, while a port is in service, on one
of the core's own die when one is; LACQ is noted, LRENEW makes an Active lease Renewing, LREL leaves its record to the firmware; a message that arrives fills the next free
inbound slot with VALID set and moves on by one slot of 64; a grant below the directory's generation is discarded; one that
falls in the cycle in which its lease expires wins. -/
def Sys2Proof.Cert.LeaseMessagesUseTheirRings : Prop :=
  (∀ (s : State) (core slot port : Nat) (c : Mend), kget s.mends core = some c → slot < 64 → c.slotValid leaseOut slot = true →
    s.mem.leasePort core = some port →
    let bs := c.slotBytes leaseOut slot
    let m := leaseMsgOf bs
    let x := c.clearSlot leaseOut slot
    let out := fun (x : Mend) => (s.setMend core x).emit (.lease core port (bs.take 31 ++ [0]))
    (bs.headD 0 = 1 → exec (.lacq core slot) s = .next (out { x with lreqs := c.lreqs ++ [{ tag := m.tag.toNat, lease := m.lease.toNat }] })) ∧
    (bs.headD 0 = 4 → (s.lease m.lease.toNat).st = 1 → ∃ t, exec (.lrenew core slot) s = .next t ∧ (t.lease m.lease.toNat).st = 2 ∧
      (∀ l, l ≠ m.lease.toNat → t.lease l = s.lease l) ∧ t.mends = (out x).mends ∧ t.ctl = (out x).ctl ∧ t.ops = s.ops) ∧
    (bs.headD 0 = 4 → (s.lease m.lease.toNat).st ≠ 1 → exec (.lrenew core slot) s = .next (out x)) ∧
    (bs.headD 0 = 5 → exec (.lrel core slot) s = .next (out x)) ∧
    (c.sram.wf = true → x.slotValid leaseOut slot = false ∧
      ∀ a, a ≠ leaseOut + 32 * slot + 31 → mget x.sram a = mget c.sram a)) ∧
  (∀ (m : MemSys) (core : Nat),
    (m.portUp (2 * core) = true → m.leasePort core = some (2 * core)) ∧
    (m.portUp (2 * core) = false → m.portUp (2 * core + 1) = true → m.leasePort core = some (2 * core + 1)) ∧
    (∀ p, m.leasePort core = some p → m.portUp p = true)) ∧
  (∀ (s : State) (core slot : Nat), s.mem.leasePort core = none → exec (.lacq core slot) s = .next s ∧ exec (.lrenew core slot) s = .next s ∧
    exec (.lrel core slot) s = .next s) ∧
  (∀ (s : State) (core : Nat) (c : Mend) (m : LeaseMsg), kget s.mends core = some c → c.lmWait = [] → c.sram.wf = true →
    c.slotValid leaseIn c.linPos = false →
    let left := c.lreqs.filter fun r => !(r.tag == m.tag.toNat && r.lease == m.lease.toNat)
    let old := fun (d : DirRec) => kget s.mem.dir m.lease.toNat = some d ∧ m.gen.toNat < d.gen.toNat
    ((∃ d, old d) → exec (.lgrant core m) s = .next (s.setMend core { c with lreqs := left })) ∧
    let asked := ∃ r ∈ c.lreqs, r.tag = m.tag.toNat ∧ r.lease = m.lease.toNat
    let tie := s.leaseTie m.lease.toNat
    let full := { { c with lreqs := left }.fillSlot leaseIn c.linPos (leaseBytes 2 m) with linPos := (c.linPos + 1) % 64 }
    ((¬ ∃ d, old d) → (s.lease m.lease.toNat).st = 3 → tie = false → ¬ asked →
      exec (.lgrant core m) s = .next (s.setMend core { c with lreqs := left })) ∧
    ((¬ ∃ d, old d) → (asked ∨ ((s.lease m.lease.toNat).st ≠ 3 ∧ tie = false)) →
      exec (.lgrant core m) s = .next (s.setMend core full)) ∧
    ((¬ ∃ d, old d) → ¬ asked → tie = true → exec (.lgrant core m) s = .next ((s.leaseTied m.lease.toNat).setMend core full)) ∧
    exec (.ldeny core m) s = .next (s.setMend core { { c with lreqs := left }.fillSlot leaseIn c.linPos (leaseBytes 3 m) with
      linPos := (c.linPos + 1) % 64 }) ∧
    (c.fillSlot leaseIn c.linPos (leaseBytes 2 m)).slotValid leaseIn c.linPos = true) ∧
  (∀ (s : State) (l : Nat), ((s.leaseTied l).lease l).st = 1 ∧ ∀ j, j ≠ l → (s.leaseTied l).lease j = s.lease j)

/-- 03 R79, R80, R85; 11 R341, R343, R344: a lease whose EXPIRY its owner's count has reached becomes Expired, but in the cycle of a
grant; the loss of a node
makes every record that names it Lost and is reported; a directory record that turned Revoked or Lost revokes or loses the lease
that it names, Lost for the reserve; a back-invalidated pressed page is dropped, its L1 sectors marked, and answered. -/
def Sys2Proof.Cert.LeasesEndAndPagesAreDropped : Prop :=
  (∀ (s : State) (l : Nat) (c : Mend), kget s.mends (s.lease l).owner = some c →
    ((s.lease l).live = true → (s.lease l).expiry ≤ c.cycles → (s.lease l).granted ≠ c.cycles + 1 → (s.lease l).tied = false → ∃ t, exec (.leaseExpiry l) s = .next t ∧ (t.lease l).st = 3 ∧
      (∀ j, j ≠ l → t.lease j = s.lease j) ∧ t.mem.bytes = s.mem.bytes ∧ t.mem.pool = s.mem.pool ∧ t.mem.secs = s.mem.secs ∧ t.ops = s.ops ∧
      t.warps = s.warps ∧ t.mends = s.mends) ∧
    ((s.lease l).live = false ∨ c.cycles < (s.lease l).expiry ∨ (s.lease l).granted = c.cycles + 1 ∨ (s.lease l).tied = true → exec (.leaseExpiry l) s = .next s)) ∧
  (∀ (s : State) (core : Nat) (node : BitVec 16) (l : Nat) (e : Lease), ksorted s.mem.leases = true → kget s.mem.leases l = some e →
    (∀ q ∈ s.mem.preqs, q.2.publishes = false) →
    ∃ t, exec (.llost core node) s = .next t ∧ t.ops = s.ops ∧ t.warps = s.warps ∧ t.mem.pool = s.mem.pool ∧
      (e.node = node.toNat → e.st ≠ 0 → (t.lease l).st = 5) ∧ (e.node ≠ node.toNat → t.lease l = s.lease l)) ∧
  (∀ (s : State) (l : Nat) (r : DirRec) (old : BitVec 3), old = ((kget s.mem.dir l).map (·.dstate)).getD 0 →
    let same := (s.lease l).node = r.node.toNat ∧ (s.lease l).extent = r.extent.toNat
    s.mem.pool.wf = true → (∀ q ∈ s.mem.preqs, q.2.publishes = false) →
    ∃ t, exec (.directoryBackInvalidation l r) s = .next t ∧ kget t.mem.dir l = some r ∧ t.ops = s.ops ∧
      t.mem.pool = mwrite s.mem.pool (s.mgmt.ldirbase.toNat + 16 * l) (dirBytes r) ∧
      (∀ j, j / 4 ≠ l / 4 → t.lease j = s.lease j) ∧
      (old = r.dstate → t.lease l = s.lease l) ∧ (¬ same → t.lease l = s.lease l) ∧ (r.dstate = 0 ∨ r.dstate = 1 → t.lease l = s.lease l) ∧
      (old ≠ r.dstate → same → r.dstate = 2 → (s.lease l).reserve = false → (s.lease l).live = true → (t.lease l).st = 4) ∧
      (old ≠ r.dstate → same → r.dstate = 2 → (s.lease l).reserve = true → (s.lease l).st ≠ 0 → (t.lease l).st = 5) ∧
      (old ≠ r.dstate → same → r.dstate = 3 → (s.lease l).st ≠ 0 → (t.lease l).st = 5)) ∧
  (∀ (s : State) (page : Nat) (bs : List Byte), ksorted s.mem.secs = true → ∃ t, exec (.bisnp page bs) s = .next t ∧
    t.ctl = { s.ctl with out := s.ctl.out ++ [.birsp page] } ∧ t.ops = s.ops ∧ t.mem.leases = s.mem.leases ∧
    (∀ k, k / 16 = page → (t.mem.sec k).valid = false) ∧ (∀ k, k / 16 ≠ page → t.mem.sec k = s.mem.sec k) ∧
    (∀ c x key q, kget s.cores c = some x → kget x.l1 key = some q → ∃ x', kget t.cores c = some x' ∧
      kget x'.l1 key = some (if key / 2048 = page ∧ q.kind = .pressed then { q with marked := true } else q)) ∧
    (bs = [] → t.mem.pool = s.mem.pool) ∧
    (bs ≠ [] → t.mem.pool = mwrite s.mem.pool (s.mem.poolAddr (page * 65536)) (bs.take 65536) ∧
      kgetD t.mem.pver page 0 = kgetD s.mem.pver page 0 + 1))

/-- 03 R72; 11 R339, R346; 16 R397, R404, R405, R406; 17 R433: a completion fills a sector from its pool extent, under the key that
it was written with, or ends a write-back, whose sector is clean then when it holds those bytes still, and leaves when its extent has been
released; a request is late 120,000 cycles of its die after its transmission, a publication 12,000,000, and not before. A late
write-back goes again on another port, encrypted, in 64 writes of 64 bytes, with the same bytes, and leaves an entry of KIND 3; a late read
leaves, and a late publication too, an entry of KIND 1 whose TAG is that of the demand event of reason 6 on which what waited is held.
A port that goes down leaves an entry of KIND 2, its requests are late at once, and one that retrains takes those that were kept. -/
def Obligations.PoolRequestsCompleteOrAreLate : Prop :=
  let entry := fun (kind unit node count addr tag : Nat) =>
    ({ kind := kind, unit := unit, node := node, count := count, carve := false, addr := addr, tag := tag } : FaultEnt)
  let without := fun (s : State) (id : Nat) => { s with mem := { s.mem with preqs := kdel s.mem.preqs id } }
  let late := fun (s : State) (id : Nat) (r : PoolReq) (w : PoolWork) (wait : Nat) => kget s.mem.preqs id = some r ∧ r.work = w ∧
    r.out = true ∧ ∃ c, kget s.mends (r.port / 2) = some c ∧ r.since + wait ≤ c.cycles
  let again := fun (s u : State) (id : Nat) (r : PoolReq) (bs : List Byte) => ∃ r', kget u.mem.preqs id = some r' ∧ r'.work = r.work ∧
    r'.addr = r.addr ∧ r'.key = r.key ∧ r'.tries = r.tries + 1 ∧ r'.out = true ∧ r'.port ≠ r.port ∧
    kget u.mem.pports r'.port = some { up := true } ∧ u.ctl.out = s.ctl.out ++ ((List.range 64).map fun i =>
      .poolWrite id r'.port (r.addr + 64 * i) (((Config.sm4xts r.key (sectorTweak r.addr) bs).drop (64 * i)).take 64)) ∧
    u.mem.bytes = s.mem.bytes ∧ u.mem.pool = s.mem.pool ∧ u.mem.secs = s.mem.secs ∧ u.ops = s.ops ∧ u.mends = s.mends
  (∀ (s : State) (id k : Nat) (r : PoolReq), kget s.mem.preqs id = some r → r.work = .fill k → r.out = true → (s.mem.sec k).valid = false →
    (s.mem.sec k).lost = false → s.fab.inHeld = [] →
    kgetD s.mem.seals (r.addr / 4096) (s.keyAt (k * 4096)) = s.keyAt (k * 4096) →
    exec (.poolCompletion id) s = .next { s with mem := { s.mem with
      preqs := kdel s.mem.preqs id,
      bytes := mcopy s.mem.bytes (k * 4096) s.mem.pool r.addr 4096,
      secs := kset s.mem.secs k { s.mem.sec k with valid := true, dirty := false } } }) ∧
  (∀ (s : State) (id k : Nat) (bs : List Byte) (r : PoolReq), kget s.mem.preqs id = some r → r.work = .wb k bs → r.out = true →
    s.fab.inHeld = [] → (∀ e ∈ s.mem.preqs, e.2.after ≠ some id) → ∃ t, t = { s with mem := { s.mem with
      preqs := kdel s.mem.preqs id, pool := mwrite s.mem.pool r.addr bs, seals := kset s.mem.seals (r.addr / 4096) r.key } } ∧
    ((s.mem.leaseAt (k * 4096)).st ≠ 0 →
      ((s.mem.sec k).valid = false ∨ (s.mem.sec k).lost = true ∨ poolHome r.addr ≠ (s.mem.leaseAt (k * 4096)).home →
        exec (.poolCompletion id) s = .next t) ∧
      (s.mem.sec k = { valid := true, dirty := true, lost := false } → poolHome r.addr = (s.mem.leaseAt (k * 4096)).home →
        exec (.poolCompletion id) s = .next { t with mem := { t.mem with
          secs := kset s.mem.secs k { valid := true, dirty := decide (mread s.mem.bytes (k * 4096) 4096 ≠ bs), lost := false } } })) ∧
    ((s.mem.leaseAt (k * 4096)).st = 0 → (s.mem.sec k).valid = true → (∀ e ∈ s.mem.preqs, e.1 = id ∨ ∀ x, e.2.work ≠ .wb k x) →
      ksorted s.mem.preqs = true → ksorted s.mem.secs = true → ∃ u, exec (.poolCompletion id) s = .next u ∧ (u.mem.sec k).valid = false ∧
        u.mem.pool = t.mem.pool ∧ u.mem.preqs = t.mem.preqs ∧ ∀ j, j ≠ k → u.mem.sec j = s.mem.sec j)) ∧
  (∀ (s : State) (id op page : Nat) (r : PoolReq), kget s.mem.preqs id = some r → r.work = .publish op page → r.out = true →
    exec (.poolCompletion id) s = .next ((without s id).publishOf op page)) ∧
  (∀ (s : State) (id : Nat) (r : PoolReq), kget s.mem.preqs id = some r → r.out = false → exec (.poolCompletion id) s = .next s ∧
    exec (.poolTimeout id) s = .next s) ∧
  (∀ (s : State) (id : Nat) (r : PoolReq) (c : Mend), kget s.mem.preqs id = some r → kget s.mends (r.port / 2) = some c →
    c.cycles < r.since + 120000 → exec (.poolTimeout id) s = .next s) ∧
  (∀ (s : State) (id op page : Nat) (r : PoolReq) (c : Mend), kget s.mem.preqs id = some r → r.work = .publish op page →
    kget s.mends (r.port / 2) = some c → c.cycles < r.since + 12000000 → exec (.poolTimeout id) s = .next s) ∧
  (∀ (s : State) (id k : Nat) (r : PoolReq), late s id r (.fill k) 120000 → s.mem.stalled = [] → s.fab.inHeld = [] →
    (s.ops = [] → exec (.poolTimeout id) s = .next ((without s id).memFault (entry 1 r.port (r.addr / 2 ^ 62) 0 (k * 4096) 0xFFFF))) ∧
    (∀ (n wk a ty tag : Nat) (l1 v : Bool) (y : L1Kind) (o : Op) (e : Elem) (s1 : State), s.ops = [(n, o)] → o.who = .warp wk →
      o.kind = .acc (.load l1 ty v) → o.elems = [e] → e.place = some (.loc a y) → a / 4096 = k → e.done = false → e.sent = false →
      s.mem.forward a = none →
      (without s id).postDemand o.ctx ((without s id).srcOf o.who o.ctx none) { reason := 6, kind := o.kindCode, va := e.va } = (s1, some tag) →
      exec (.poolTimeout id) s = .next ({ s1 with ops := [(n, { o with hold := o.hold ++ [tag], elems := [{ e with place := none }] })] }.memFault
        (entry 1 r.port (r.addr / 2 ^ 62) 1 (k * 4096) (tag % 1024))))) ∧
  (∀ (s : State) (id k p : Nat) (bs : List Byte) (r : PoolReq), late s id r (.wb k bs) 120000 → p < 8 → r.port < 8 → p ≠ r.port →
    kget s.mem.pports p = some { up := true } → ∃ u, exec (.poolTimeout id) s =
      .next (u.memFault (entry 3 r.port (r.addr / 2 ^ 62) 1 (k * 4096) 0xFFFF)) ∧ again s u id r bs) ∧
  (∀ (s : State) (id op page a tag : Nat) (r : PoolReq) (o : Op) (e : Elem) (y : L1Kind) (s1 : State), late s id r (.publish op page) 12000000 →
    kget s.ops op = some o → o.elems = [e] → e.lane = 0 → e.reg = page → e.done = false → e.place = some (.loc a y) →
    (without s id).postDemand o.ctx ((without s id).srcOf o.who o.ctx none) { reason := 6, kind := 1, va := e.va } = (s1, some tag) →
    let held := { o with hold := o.hold ++ [tag], elems := [{ e with swap := 0, data := 1 }] }
    exec (.poolTimeout id) s = .next ({ s1 with ops := kset s1.ops op held }.memFault (entry 1 r.port (r.addr / 2 ^ 62) 1 a (tag % 1024)))) ∧
  (∀ (s : State) (port p2 : Nat), port < 8 → kget s.mem.pports port = some { up := true } → p2 ≠ port → p2 < 8 →
    kget s.mem.pports p2 = some { up := true } →
    let down := { s with mem := { s.mem with pports := kset s.mem.pports port { up := false } } }
    ((∀ e ∈ s.mem.preqs, e.2.port ≠ port ∨ e.2.out = false) → exec (.poolPortDown port) s =
      .next (down.memFault (entry 2 port 0 0 0 0xFFFF))) ∧
    (∀ id r k, s.mem.preqs = [(id, r)] → r.port = port → r.out = true → r.work = .fill k → s.ops = [] → s.mem.stalled = [] →
      s.fab.inHeld = [] → exec (.poolPortDown port) s = .next ((without down id).memFault (entry 2 port 0 0 (k * 4096) 0xFFFF))) ∧
    (∀ id r k bs, s.mem.preqs = [(id, r)] → r.port = port → r.out = true → r.work = .wb k bs → ∃ u, exec (.poolPortDown port) s =
      .next ((u.memFault (entry 2 port 0 1 0 0xFFFF)).memFault (entry 3 port (r.addr / 2 ^ 62) 1 (k * 4096) 0xFFFF)) ∧
      again down u id r bs)) ∧
  (∀ (s : State) (port : Nat), kget s.mem.pports port = some { up := false } → s.fab.inHeld = [] →
    let ports := kset s.mem.pports port { up := true }
    ((∀ e ∈ s.mem.preqs, e.2.out = true) →
      exec (.poolPortRetrain port true) s = .next { s with mem := { s.mem with pports := ports } }) ∧
    (∀ id r p, s.mem.preqs = [(id, r)] → r.out = false → r.after = none →
      (∀ l ∈ s.mem.leases, l.2.st = 5 → l.2.home ≠ poolHome r.addr) → { s.mem with pports := ports }.portFrom r.port = some p →
      exec (.poolPortRetrain port true) s = .next ({ s with mem := { s.mem with
        pports := ports, preqs := [(id, s.stamped { r with port := p, out := true })] } }.poolEmit id (s.stamped { r with port := p, out := true }))) ∧
    exec (.poolPortRetrain port false) s = .next s) ∧
  (∀ (c : Mend) (e : FaultEnt), c.frWait = [] → c.sram.wf = true → c.frPos < 256 →
    let a := faultRing + 32 * c.frPos
    let x := c.fault e
    (c.slotValid faultRing c.frPos = false → x.frPos = (c.frPos + 1) % 256 ∧ x.frDrops = 0 ∧ x.slotValid faultRing c.frPos = true ∧
      bitsOf (mget x.sram (a + 30)).toNat 4 4 = e.kind % 16 ∧ mget x.sram (a + 29) = BitVec.ofNat 8 e.unit ∧
      mnum x.sram (a + 27) 2 = min c.frDrops 65535 ∧ (∀ b, b < a ∨ a + 32 ≤ b → mget x.sram b = mget c.sram b)) ∧
    (c.slotValid faultRing c.frPos = true → x.sram = c.sram ∧ x.frPos = c.frPos ∧
      (e.kind = 4 ∨ e.kind = 5 ∨ e.kind = 7 → x.frWait.length = 1 ∧ x.frDrops = c.frDrops) ∧
      (e.kind ≠ 4 → e.kind ≠ 5 → e.kind ≠ 7 → x.frWait = [] ∧ x.frDrops = c.frDrops + 1)))

/-- 03 R92, R93; 11 R328, R329; 12 R355; 17 R426: at RUN, a posted write goes to the window of bits 37:32 of its offset; the window must be enabled and
armed, hold the offset, and match the requester, else the write is discarded and recorded; one that it accepts becomes stores in
the arming context, marked when it overlaps the marker doubleword; a poisoned one faults the window. -/
def Sys2Proof.Cert.LandingWritesAreDecoded : Prop :=
  (∀ (s : State) (req : BitVec 16) (off : Nat) (data : List Byte), s.mgmt.stage = 9 → data ≠ [] →
    data.length ≤ 4096 → off < 2 ^ 38 →
    let w := off / 2 ^ 32
    let a := off % 2 ^ 32
    let x := s.win w
    let ok := a + data.length ≤ 2 ^ 32 ∧ x.en = true ∧ a < x.pages.toNat * 65536 ∧ x.ctx.isSome = true
    (ok → req &&& x.mask = x.reqid &&& x.mask → ∀ ctx, x.ctx = some ctx →
      exec (.landingWrite req off data false) s = .next (s.landApply w x ctx req a data) ∧
      exec (.landingWrite req off data true) s = .next (s.landFault s.opNo w cUncorrectable 0 (x.base.toNat * 65536 + a))) ∧
    (2 ^ 32 < a + data.length → x.turnsAway req a data.length = some 2) ∧
    (a + data.length ≤ 2 ^ 32 → ¬ ok → x.turnsAway req a data.length = some 0) ∧
    (ok → req &&& x.mask ≠ x.reqid &&& x.mask → x.turnsAway req a data.length = some 1) ∧
    (∀ r, x.turnsAway req a data.length = some r → ∀ p, exec (.landingWrite req off data p) s = .next (s.landDiscard w req r))) ∧
  (∀ (s : State) (w : Nat) (req : BitVec 16) (reason : Nat), reason < 4 → w < 64 → ∃ e, (s.landDiscard w req reason).land.err = e ∧
    bitsOf e.toNat 26 6 = w ∧ bitsOf e.toNat 24 2 = reason ∧ bitsOf e.toNat 16 8 = min 255 (bitsOf s.land.err.toNat 16 8 + 1) ∧
    bitsOf e.toNat 0 16 = req.toNat ∧ (s.landDiscard w req reason).mem = s.mem ∧
    (s.landDiscard w req reason).land.wins = s.land.wins ∧ (s.landDiscard w req reason).ctl.out = s.ctl.out ++ [.advisory req]) ∧
  (∀ (s : State) (k w cause detail va : Nat), ((s.landFault k w cause detail va).win w).fault = true ∧
    (w < 64 → (s.landFault k w cause detail va).land.flt.getLsbD w = true)) ∧
  (∀ (x : LandWin) (off n : Nat), x.marks off n = true ↔ off < x.marker.toNat / 8 * 8 + 8 ∧ x.marker.toNat / 8 * 8 < off + n)

namespace Sys2Proof.Cert

/-- The packet at RDIDX of queue q is live, of a type, free of header errors, and not held back by AFTER (10 R291; 15 R394). -/
def PacketAt (s : State) (q ty p : Nat) : Prop :=
  q < 256 ∧ ((s.queue q).state = 1 ∨ (s.queue q).state = 2) ∧ (s.part (s.queue q).part.toNat).stopped = false ∧
  (∀ gk ∈ s.resuming, s.groupPart gk ≠ (s.queue q).part.toNat) ∧ p = mnum s.sched.win (q * 0x40000 + 64 * (s.queue q).rdidx.toNat) 64 ∧ bitAt p 63 = (s.queue q).par ∧ bitsOf p 56 3 = ty ∧ ty < 5 ∧
  bitsOf p 59 4 = 0 ∧ bitsOf p 45 3 = 0 ∧ bitsOf p 50 2 = 0 ∧ (ty ≠ 1 → bitsOf p 52 4 = 0) ∧
  (bitAt p 48 = true → (s.queue q).open_ = [])

/-- The queue after a packet is taken: the pointer moves on, PAR inverts at the wrap (10 R291). -/
def takenQueue (r : Queue) (id : Nat) : Queue :=
  { r with rdidx := r.rdidx + 1, par := if r.rdidx = 4095 then !r.par else r.par, open_ := r.open_ ++ [(r.rdidx.toNat, id)],
           state := if r.en = true then 1 else 0 }

/-- What the completion of a packet will need of it. -/
def takenPacket (r : Queue) (q p : Nat) (op : Option Nat) : Packet :=
  { q := q, slot := r.rdidx.toNat, tag := BitVec.ofNat 32 (bitsOf p 0 32), par := r.par, crec := bitAt p 49, cen := bitAt p 44,
    cidx := bitsOf p 32 12, op := op, status := 0 }

/-- A packet of queue q is taken, and count words become f. -/
def taken (s : State) (q p : Nat) (op : Option Nat) (f : List (Nat × DWord)) : State :=
  { s with sched := { s.sched with
    queues := kset s.sched.queues q (takenQueue (s.queue q) (op.getD 0)),
    packets := s.sched.packets ++ [takenPacket (s.queue q) q p op],
    counts := f } }

/-- The queue stops in STATE 3 with an ERR; its pointer stays (10 R299). One that is being disabled ends disabled, and its
pointer moves on (10 R290). -/
def queueErr (s : State) (q e : Nat) : State := s.modQueue q fun r =>
  if r.en then { r with state := 3, err := BitVec.ofNat 8 e }
  else { r with state := 0, err := BitVec.ofNat 8 e, rdidx := r.rdidx + 1, par := if r.rdidx = 4095 then !r.par else r.par }

/-- The doublewords that a parse has read at an address. -/
def ReadBack (s : State) (q a bits : Nat) : Prop := ∃ k o,
  (s.ops.find? fun o => o.2.who == .queue q && o.2.kind == .acc .recRd && (o.2.elems.head?.map (·.va)) == some a) = some (k, o) ∧
  (∀ e ∈ o.elems, e.done = true) ∧ bits = packFields (o.elems.map fun e => ((e.got.getD 0).toNat, 64))

end Sys2Proof.Cert

/-- 10 R291, R297, R298; 15 R394: a live COUNT adds to its count word, a FENCE passes once every listed word has reached its least
value and else waits in STATE 2, a WRITE becomes one store of 8 bytes and a COPY one copy; each is taken. -/
def Sys2Proof.Cert.PacketsAreTaken : Prop :=
  (∀ (s : State) (q p : Nat), PacketAt s q 2 p →
    (p / 2 ^ 192 = 0 → bitsOf p 64 64 < 4096 → exec (.countPacket q) s = .next (taken s q p none
      (sset 0 s.sched.counts (bitsOf p 64 64) (s.count (bitsOf p 64 64) + BitVec.ofNat 64 (bitsOf p 128 64))))) ∧
    (p / 2 ^ 192 ≠ 0 ∨ 4096 ≤ bitsOf p 64 64 → exec (.countPacket q) s = .next (queueErr s q 1))) ∧
  (∀ (s : State) (q p : Nat), PacketAt s q 1 p →
    let n := bitsOf p 52 4
    let good := 0 < n ∧ n ≤ 12 ∧ p / 2 ^ (128 + 32 * n) = 0
    let met := ∀ j, j < n → (bitsOf p 64 64 + bitsOf p (128 + 32 * j) 20) % 2 ^ 64 ≤ (s.count (bitsOf p (148 + 32 * j) 12)).toNat
    (good → met → exec (.fencePacket q) s = .next (taken s q p none s.sched.counts)) ∧
    (good → ¬ met → exec (.fencePacket q) s = .next (s.modQueue q fun r => { r with state := 2 })) ∧
    (¬ good → exec (.fencePacket q) s = .next (queueErr s q 3))) ∧
  (∀ (s : State) (q p : Nat), PacketAt s q 3 p → p / 2 ^ 192 = 0 →
    (bitsOf p 64 64 % 8 = 0 → exec (.writePacket q) s = .next (((taken s q p (some s.opNo) s.sched.counts).addOp
      { who := .queue q, ctx := queueCtx q, gk := 0, insn := s.ctl.insn, kind := .acc .store, lanes := 0, slot := none,
        elems := [Elem.virt 0 (bitsOf p 64 64) 8 (BitVec.ofNat 64 (bitsOf p 128 64)) 0 0], hold := [], want := [], epoch := 0 }).transOp s.opNo)) ∧
    (bitsOf p 64 64 % 8 ≠ 0 → exec (.writePacket q) s = .next (queueErr s q 4))) ∧
  (∀ (s : State) (q p : Nat), PacketAt s q 4 p → p / 2 ^ 256 = 0 →
    let dst := bitsOf p 64 64
    let src := bitsOf p 128 64
    let len := bitsOf p 192 64
    (dst % 16 = 0 → src % 16 = 0 → len % 16 = 0 → 0 < len → len ≤ 2 ^ 32 →
      exec (.copyPacket q) s = .next ((taken s q p (some s.opNo) s.sched.counts).addOp
        { who := .queue q, ctx := queueCtx q, gk := 0, insn := s.ctl.insn, lanes := 0, slot := none, elems := [], hold := [], want := [],
          kind := .async (.copy dst src len) 0 [] [] (s.pickEngine (s.queue q).part.toNat) 0, epoch := 0 })) ∧
    (dst % 16 ≠ 0 ∨ src % 16 ≠ 0 → exec (.copyPacket q) s = .next (queueErr s q 4)) ∧
    (dst % 16 = 0 → src % 16 = 0 → len % 16 ≠ 0 ∨ len = 0 ∨ 2 ^ 32 < len → exec (.copyPacket q) s = .next (queueErr s q 5)))

/-- 10 R294 to R296, R304; 15 R394: a LAUNCH with aligned addresses, 1 to 2^24 groups and no reserved bits reads its descriptor, and
its seam record when it has one; once they are read and within their limits its grid exists with no group started. -/
def Sys2Proof.Cert.LaunchesCreateGrids : Prop :=
  (∀ (s : State) (q p : Nat), PacketAt s q 0 p →
    let desc := bitsOf p 64 64
    let seam := bitsOf p 448 64
    let n := bitsOf p 384 32
    bitsOf p 185 7 = 0 → bitsOf p 140 4 = 0 → bitsOf p 377 7 = 0 → desc % 64 = 0 → seam % 64 = 0 → 0 < n → n ≤ 2 ^ 24 →
    (∀ bits, ReadBack s q desc bits → kdescBad bits (kdescOf bits) = false → (kdescOf bits).seam = false → seam = 0 →
      exec (.launch q) s = .next (s.addGrid q p (kdescOf bits) none)) ∧
    (∀ bits rec, ReadBack s q desc bits → kdescBad bits (kdescOf bits) = false → (kdescOf bits).seam = true → seam ≠ 0 →
      ReadBack s q seam rec → seamRecBad rec (kdescOf bits) n = false →
      exec (.launch q) s = .next (s.addGrid q p (kdescOf bits) (some (seamRecOf rec)))) ∧
    (∀ bits, ReadBack s q desc bits → kdescBad bits (kdescOf bits) = true → ∃ t, exec (.launch q) s = .next t ∧ t.grids = s.grids ∧
      t.queue q = (queueErr s q 6).queue q ∧ t.groups = s.groups) ∧
    ((∀ o ∈ s.ops, o.2.who ≠ .queue q) → ∃ o, exec (.launch q) s = .next (((s.unheld q).addOp o).transOp s.opNo) ∧ o.who = .queue q ∧
      o.ctx = queueCtx q ∧ o.kind = .acc .recRd ∧ o.elems.map (fun e => (e.va, e.n)) = (List.range 8).map fun i => (desc + 8 * i, 8))) ∧
  (∀ (s : State) (q p : Nat) (d : KDesc) (seam : Option SeamRec), s.grids.length ≤ 2 ^ 20 →
    let t := s.addGrid q p d seam
    (∃ id, kget s.grids id = none ∧ kget t.grids id = some (gridOf s q p d seam) ∧ ∀ j, j ≠ id → kget t.grids j = kget s.grids j) ∧
    t.queue q = takenQueue (s.queue q) s.freshGrid ∧ t.groups = s.groups ∧ t.warps = s.warps ∧ t.mem = s.mem ∧
    (∀ r, seam = some r → khas t.seams r.id = true) ∧ (seam = none → t.seams = s.seams) ∧
    (∀ o ∈ t.ops, o ∈ s.ops) ∧ (∀ o ∈ s.ops, o.2.who ≠ .queue q → o ∈ t.ops)) ∧
  (∀ (s : State) (q p : Nat) (d : KDesc) (seam : Option SeamRec),
    let g := gridOf s q p d seam
    g.nextg = 0 ∧ g.waits = [] ∧ g.fin = 0 ∧ g.cycles = 0 ∧ g.killed = none ∧ g.folds = [] ∧ g.linings = [] ∧ g.desc = d ∧
    g.ngroups = bitsOf p 384 32 ∧ g.ptroot = (s.queue q).ptroot ∧ g.part = (s.queue q).part.toNat ∧
    g.args.toNat = bitsOf p 192 64 ∧ g.data.toNat = bitsOf p 256 64 ∧ g.foldbase.toNat = bitsOf p 128 64 ∧
    g.csa = bitsOf p 336 41 * 65536 ∧ g.nframe = bitsOf p 320 16 ∧ g.savevec.toNat = bitsOf p 416 32)

/-- 10 R290, R293; 07 R250: a packet whose effects are home leaves its record in its ring slot when it asks for one, then adds 1 to
its count word when it asks for that, and is no longer open; the host, while its link is up, enables a queue, which starts it at
slot 0 with PAR 1, and disables it, which stops it. -/
def Sys2Proof.Cert.PacketsCompleteAndQueuesSwitch : Prop :=
  (∀ (s : State) (q slot : Nat) (p : Packet), s.sched.packets.find? (fun p => p.q == q && p.slot == slot) = some p → p.op = none →
    s.hostOwed (· == 0) = false → s.sched.win.wf = true → ksorted s.sched.counts = true → ∃ t, exec (.packetComplete q slot) s = .next t ∧
      t.sched.packets = s.sched.packets.erase p ∧ t.mem = s.mem ∧ t.grids = s.grids ∧ t.ops = s.ops ∧
      (p.crec = true → mread t.sched.win (0x5000000 + q * 0x10000 + 16 * slot) 16 =
        leBytes 16 (packFields [(p.tag.toNat, 32), (p.status, 16), (p.par.toNat, 1), (0, 79)])) ∧
      (p.crec = false → t.sched.win = s.sched.win) ∧
      (p.cen = true → t.count p.cidx = s.count p.cidx + 1 ∧ ∀ k, k ≠ p.cidx → t.count k = s.count k) ∧
      (p.cen = false → t.sched.counts = s.sched.counts) ∧
      t.queue q = { s.queue q with open_ := (s.queue q).open_.eraseP fun x => x.1 == slot }) ∧
  (∀ (s : State) (q slot id : Nat) (g : Grid), s.sched.packets.find? (fun p => p.q == q && p.slot == slot) = none →
    s.grids.find? (fun g => g.2.q == q && g.2.pslot == slot && s.gridDone g.1 g.2) = some (id, g) →
    s.hostOwed (fun k => gkGrid k == id && k != 0) = false → ksorted s.grids = true → ∃ t, exec (.packetComplete q slot) s = .next t ∧
      t = (s.dropGrid id).recordPacket q slot g.crec g.cen g.cidx (packFields [(g.tag.toNat, 32), (g.killed.getD 0, 16),
        (g.par.toNat, 1), (0, 15), (wrapInt 64 g.cycles, 64)]) ∧ kget t.grids id = none ∧
      (∀ k, gkGrid k = id → kget t.groups k = none)) ∧
  (∀ (s : State) (q : Nat), s.host.up = false → exec (.queueEnable q) s = .next s ∧ exec (.queueDisable q) s = .next s) ∧
  (∀ (s : State) (q : Nat), q < 256 → s.host.up = true →
    ((s.queue q).en = false → ∃ t, exec (.queueEnable q) s = .next t ∧ (∀ j, j ≠ q → t.queue j = s.queue j) ∧
      t.queue q = { s.queue q with en := true, rdidx := 0, par := true, deficit := 0, state := 1 } ∧
      t.grids = s.grids ∧ t.mem = s.mem) ∧
    ((s.queue q).en = true → exec (.queueEnable q) s = .next s ∧
      exec (.queueDisable q) s = .next (s.modQueue q fun r =>
        { r with en := false, state := if r.state ≠ 3 ∧ bitAt (s.packetBits q) 63 = r.par then r.state else 0 })) ∧
    ((s.queue q).en = false → exec (.queueDisable q) s = .next s))

/-- 10 R290, 10 R291, 10 R293, 10 R294, 10 R295, 10 R296, 10 R297, 10 R298, 10 R304, 15 R394: packets are taken, launch grids and complete; queues are
switched: the parts above. That the sum of a FENCE is taken modulo 2^64 is log 17, and that enabling a queue keeps its ERR is log 16. -/
def Obligations.PacketsLaunchesAndCompletion : Prop := PacketsAreTaken ∧ LaunchesCreateGrids ∧ PacketsCompleteAndQueuesSwitch

/-- 10 R296, R300, R303, R308, R315, R316: the level that a placement turns to takes the queue that select(L) names; its lowest
waiting group starts on the lowest site where it fits, on slots that no other group holds and that are held for none, in its
first state, or is restored,
and its queue pays the provisional charge; the victims of a pre-emption are of lower levels, and each takes its decision. The order
in which a queue's last waiting group pays and gives up its surplus is log 15; that each placement of another queue's group counts
once as passing over is log 42; that room freed by a pre-emption is held for the waiting group is log 43. -/
def Obligations.GroupsArePlacedAndPreempted : Prop :=
  (∀ (s t : State) (part q top id : Nat) (g : Grid) (w : Waiting) (cores slots : List Nat),
    (s.part part).state = 1 → (s.part part).stopped = false → (∀ e ∈ s.seams, s.commitWaits e.2 = false) →
    let s1 := s.pruneRooms
    let elig := (s1.waitingQueues part).filter fun q => (s1.placeFor part q).isSome
    top ∈ elig.map s1.level → (∀ q ∈ elig, s1.level q ≤ top) →
    s1.selectQ part top (elig.filter fun q => s1.level q == top) selectFuel = (t, some q) → t.placeFor part q = some (id, g, w, cores, slots) →
    kget t.grids id = some g →
    (g.seam = none → w.frame = none →
      exec (.groupPlacement part) s = .next (((t.startGroup id w.ix .run cores slots).passOver part q).afterPlace part q)) ∧
    (g.seam = none → ∀ f u, w.frame = some f → u = t.placeGroup id g w cores slots → u.runs (gkey id w.ix) = true →
      exec (.groupPlacement part) s = .next ((u.passOver part q).afterPlace part q)) ∧
    (∀ r m, g.seam = some r → kget t.seams r.id = some m → exec (.groupPlacement part) s = .next (t.startSeam r.id m))) ∧
  (∀ (elig : List Nat) (part level fuel q : Nat) (s t : State), s.selectQ part level elig fuel = (t, some q) →
    q ∈ elig ∧ 0 < (t.queue q).deficit.toInt ∧ t.levelRec part level = { ptr := q, fresh := false } ∧
      t.grids = s.grids ∧ t.groups = s.groups ∧ t.warps = s.warps ∧ t.mem = s.mem) ∧
  (∀ (s : State) (part q id : Nat) (g : Grid) (w : Waiting) (cores slots : List Nat), s.placeFor part q = some (id, g, w, cores, slots) →
    (∀ x ∈ slots, x % 16 < 15 ∧ ∀ e ∈ s.groups, e.2.phase.holdsRoom = true → x ∉ e.2.slots) ∧
    (∀ x ∈ slots, x / 16 ∈ cores) ∧ (∀ x ∈ slots, ∀ r ∈ s.sched.rooms, r.q ≠ q → x ∉ r.slots)) ∧
  (∀ (s : State) (id ix : Nat) (g : Grid) (cores slots : List Nat), kget s.grids id = some g → ∃ r,
    kget (s.startGroup id ix .run cores slots).groups (gkey id ix) = some r ∧ r.phase = .run ∧ r.cores = cores ∧ r.slots = slots ∧
      r.scr = [] ∧ r.tiles = [] ∧ r.bars = [] ∧ r.p = g.est.getD 0 ∧ (s.startGroup id ix .run cores slots).mem = s.mem) ∧
  (∀ (g : Grid) (gk i : Nat), let w := Warp.fresh g gk i
    w.live = lanesFull g.desc.width ∧ w.pcs = [] ∧ w.v = [] ∧ w.p = [] ∧ w.q = 0 ∧ w.ix = i ∧ w.x = g.desc.regx ∧ w.gk = gk ∧
      rget w.s 0 = g.args.extractLsb' 0 32 ∧ rget w.s 1 = g.args.extractLsb' 32 32 ∧ rget w.s 2 = g.data.extractLsb' 0 32 ∧
      rget w.s 3 = g.data.extractLsb' 32 32 ∧ ∀ k, 4 ≤ k → rget w.s k = 0) ∧
  (∀ (s : State) (part gk : Nat) (d : Decision) (g : Group) (r : Grid) (before after : KV Group), s.groups = before ++ (gk, g) :: after →
    ksorted s.groups = true → (∀ x ∈ before, ∀ d, x.2.phase ≠ .stopping d) → g.phase = .stopping d → kget s.grids (gkGrid gk) = some r →
    r.part = part → r.seam = none → s.seams = [] → s.quiet gk g = true →
    (d = .drain → exec (.preemption part) s = .next (s.setGroup gk { g with phase := .run })) ∧
    (d = .flush → exec (.preemption part) s = .next (s.flushGroup gk)) ∧
    (d = .save → exec (.preemption part) s = .next (s.beginSave gk)) ∧
    kget (s.flushGroup gk).groups gk = none ∧ ∃ r', kget (s.flushGroup gk).grids (gkGrid gk) = some r' ∧
      { ix := gkIx gk, frame := none, held := false } ∈ r'.waits) ∧
  (∀ (s : State) (part q id : Nat) (g : Grid) (w : Waiting) (site slots vs : List Nat), (s.part part).state = 1 → (s.part part).stopped = false →
    (∀ e ∈ s.groups, ∀ d, e.2.phase ≠ .stopping d) → s.waitingQueues part = [q] → s.nextGroup part q = some (id, g, w) →
    s.behind id g w = false → s.hasReserved (gkey id w.ix) = false → (∀ r ∈ s.sched.rooms, r.q ≠ q) →
    let brings := s.bringsOf (gkey id w.ix) g.desc w.frame
    s.fitFirst (s.otherRooms q) noneGone g.desc brings (s.openSites part q g.desc.pair) = none →
    s.clearFor (s.otherRooms q) g.desc brings (s.level q) s.leavers (s.openSites part q g.desc.pair) = some (site, slots, vs) →
    exec (.preemption part) s = .next (vs.foldl (fun s gk => s.preemptGroup gk (s.decision gk)) { s with sched := { s.sched with
      rooms := s.sched.rooms ++ [{ q := q, gk := gkey id w.ix, cores := site, slots := slots, going := s.leavers ++ vs }] } }) ∧
    ∀ v ∈ vs, ∃ e r, kget s.grids (gkGrid v) = some r ∧ (v, e) ∈ s.groups ∧ s.level r.q < s.level q) ∧
  (∀ (s : State) (gk : Nat) (g : Group) (r : Grid), kget s.groups gk = some g → kget s.grids (gkGrid gk) = some r →
    let near := ∃ e, r.est = some e ∧ 3 * e ≤ 4 * (s.consumed g : Int)
    let flush := r.desc.idem = true ∧ g.pub = false ∧ g.pubT = false ∧ r.seam = none
    let save := r.savevec ≠ 0 ∧ 0 < s.freeFrames (gkGrid gk) r
    (near → s.decision gk = .drain) ∧ (¬ near → flush → s.decision gk = .flush) ∧ (¬ near → ¬ flush → save → s.decision gk = .save) ∧
    (¬ near → ¬ flush → ¬ save → s.decision gk = .drain))

/-- 10 R311 to R313, R316: once the save handlers have ended and their stores are home, the device writes the group control block
and, of a group with tiles, 16 tiles; the group is absent, its warps are gone, and it waits again with its frame. -/
def Sys2Proof.Cert.SavesComplete : Prop :=
  (∀ (s u : State) (gk f : Nat) (g : Group) (d : Grid), kget s.groups gk = some g → kget s.grids (gkGrid gk) = some d →
    g.phase = .saving f → (∀ o ∈ s.ops, o.2.gk ≠ gk ∧ ∀ wk, o.2.who = .warp wk → ∀ e ∈ g.wks, e.2 ≠ wk) →
    (∀ e ∈ s.warpsOf g, e.2.2.handler = true ∧ e.2.2.live = 0) →
    (s.frameReady (gkGrid gk) false
      (sectorsFrom (d.frameAt f) (headSectors d.desc) ++ sectorsFrom (d.frameAt f + gapAt) gapSectors)).2 = true →
    s.writeFrame gk f g d (s.warpsOf g).isEmpty = .ok u → ∃ t, exec (.saveComplete gk) s = .next t ∧
      (∃ g', kget t.groups gk = some g' ∧ g'.phase = .saved f ∧ g'.scr = [] ∧ g'.tiles = [] ∧ g'.w = g.w + s.residency g ∧ g'.bars = g.bars) ∧
      (∃ d', kget t.grids (gkGrid gk) = some d' ∧ { ix := gkIx gk, frame := some f, held := (s.warpsOf g).isEmpty } ∈ d'.waits ∧
        d'.frames = d.frames ∧ d'.cycles = d.cycles + (s.residency g : Int)) ∧
      (∀ e ∈ g.wks, kget t.warps e.2 = none) ∧ (∀ wk, (∀ e ∈ g.wks, e.2 ≠ wk) → kget t.warps wk = kget s.warps wk) ∧ t.mem = u.mem) ∧
  (∀ (s : State) (gk : Nat) (g : Group) (held : Bool), let m := s.groupBlock gk g held
    mnum m 0 8 = (g.w + s.residency g) % 2 ^ 64 ∧ mnum m 8 4 = gkGrid gk % 2 ^ 32 ∧ mnum m 12 4 = gkIx gk ∧
    bitAt (mnum m 16 4) 0 = (g.pub || g.pubT) ∧ bitAt (mnum m 16 4) 1 = held ∧
    (∀ b, b < 16 → mnum m (0x40 + 4 * b) 4 = (g.bar b).gen.toNat ∧ mnum m (0x80 + 32 * b) 32 = (g.bar b).arr.toNat) ∧
    mnum m 0x280 32 = g.retired.toNat ∧ mnum m 0x2A0 32 = g.joins.toNat)

namespace Sys2Proof.Cert

/-- The seam that a message names is known, and this device leads it. -/
def Leads (s : State) (seam : Word) (m : Seam) : Prop := kget s.seams seam.toNat = some m ∧ m.peers.headD 0 = s.mgmt.peernum.toNat

/-- An answer of a device joins those recorded, once. -/
def joined (m : Seam) (src : Nat) : List Nat := if src ∈ m.answers then m.answers else m.answers ++ [src]

/-- Whether every member device is among some. -/
def everyDevice (m : Seam) (l : List Nat) : Prop := ∀ p ∈ m.peers, p ∈ l

/-- An attempt has failed: RELEASE to all, and a wait of 4,096 × 2^min(k, 8) cycles after failure k (10 R305). -/
def attemptFails (s : State) (id : Nat) (m : Seam) (peer : Nat) : State :=
  let k := m.fails + 1
  let t := (s.setSeam id { m with phase := .idle, answers := [], fails := k, lastBusy := peer,
                                  retry := (s.core 0).cycles + 4096 * 2 ^ (min k 8) }).seamAll m 7 id
  if k % 1024 = 0 then t.seamNotice { m with phase := .idle, answers := [], fails := k, lastBusy := peer,
                                             retry := (s.core 0).cycles + 4096 * 2 ^ (min k 8) } else t

/-- The two stages of the rendezvous. -/
def Pending (m : Seam) : Prop := m.phase = .reserving ∨ m.phase = .committing

/-- The fourteen scheduler messages from a device about a seam (11 Table 11-10), by the flit that brings one. -/
def seamMessages (dev : Nat) (seam dec : Word) (i : Nat) : List (Option Link → Instr) :=
  [fun l => .reserve ⟨dev, l⟩ seam, fun l => .reserved ⟨dev, l⟩ seam, fun l => .busy ⟨dev, l⟩ seam, fun l => .commit ⟨dev, l⟩ seam,
   fun l => .ready ⟨dev, l⟩ seam, fun l => .go ⟨dev, l⟩ seam, fun l => .release ⟨dev, l⟩ seam, fun l => .revoke ⟨dev, l⟩ seam,
   fun l => .stopreq ⟨dev, l⟩ seam, fun l => .stop ⟨dev, l⟩ seam, fun l => .stopped ⟨dev, l⟩ seam dec, fun l => .save ⟨dev, l⟩ seam,
   fun l => .detached ⟨dev, l⟩ seam i, fun l => .exitdone ⟨dev, l⟩ seam]

/-- The event e of a flit that is not the next to be passed on does nothing of its own: at a port that is down none arrives; at one
that is up, one of the half of the numbers that follows the next one waits at the port, and any other is discarded (11 R330). -/
def OutOfTurn (e : Instr) (l : Link) (s : State) : Prop :=
  let p := s.kport l.port
  (p.up = false → exec e s = .next s) ∧
  (p.up = true → l.seq ≠ p.rx → (l.seq - p.rx).toNat < 1024 → exec e s =
    .next (s.modKport l.port fun p => { p with crc := kdel p.crc l.seq.toNat, early := kset p.early l.seq.toNat e })) ∧
  (p.up = true → 1024 ≤ (l.seq - p.rx).toNat → exec e s = .next (s.modKport l.port fun p => { p with crc := kdel p.crc l.seq.toNat }))

end Sys2Proof.Cert

/-- 11 R330, R336; 17 R420: a scheduler message that a flit brings acts when the flit is passed on in its link's sequence; one that
the seam has acted on, and that no later stage makes due again, does nothing. -/
def Sys2Proof.Cert.SeamMessagesActOnce : Prop :=
  (∀ (s : State) (dev i : Nat) (seam dec : Word) (l : Link), ∀ f ∈ seamMessages dev seam dec i, OutOfTurn (f (some l)) l s ∧
    ((s.kport l.port).up = true → l.seq = (s.kport l.port).rx → exec (f (some l)) s = exec (f none) (s.linkIn l))) ∧
  (∀ (s : State) (src : Sender) (seam : Word) (m : Seam), src.link = none → kget s.seams seam.toNat = some m →
    (m.seen.getLsbD 1 = true → exec (.reserve src seam) s = .next s) ∧ (m.seen.getLsbD 4 = true → exec (.commit src seam) s = .next s) ∧
    (m.seen.getLsbD 6 = true → exec (.go src seam) s = .next s) ∧ (m.seen.getLsbD 7 = true → exec (.release src seam) s = .next s) ∧
    (m.seen.getLsbD 10 = true → exec (.stop src seam) s = .next s) ∧ (m.seen.getLsbD 12 = true → exec (.save src seam) s = .next s))

/-- 10 R305, R306; 15 R389: a RESERVE is answered RESERVED when every member has room, if need be after the reservations of higher
seams are revoked, else BUSY; the leader goes on to COMMIT and GO once every device has answered; BUSY, REVOKE and a wait of
1,048,576 cycles fail the attempt, which is tried again after its backoff, and BUSY alone names its sender as the busy device; a
RELEASE frees the room. -/
def Sys2Proof.Cert.SeamsRendezvous : Prop :=
  (∀ (s : State) (src : Nat) (seam : Word) (m0 : Seam), kget s.seams seam.toNat = some m0 → m0.seen.getLsbD 1 = false →
    let m := { m0 with seen := 2 }
    let s1 := s.setSeam seam.toNat m
    (∀ t, s1.reserveSeam m = some t → exec (.reserve ⟨src, none⟩ seam) s = .next (t.seamMsg src 2 seam.toNat 0)) ∧
    (s1.reserveSeam m = none → s1.reserveOver m (s1.revocable seam.toNat) = none →
      exec (.reserve ⟨src, none⟩ seam) s = .next (s1.seamMsg src 3 seam.toNat 0)) ∧
    (s1.reserveSeam m = none → ∀ t given, s1.reserveOver m (s1.revocable seam.toNat) = some (t, given) →
      s1.roomWithout m given = some t ∧ (∀ e ∈ given, seam.toNat < e.1 ∧ e.2.going = false) ∧
      exec (.reserve ⟨src, none⟩ seam) s = .next ((given.foldl (fun s e => s.seamMsg e.2.leader 8 e.1 0) t).seamMsg src 2 seam.toNat 0)) ∧
    (s1.reserveSeam m = none → ∀ e r t, s1.revocable seam.toNat = e :: r → (s1.freeSeam e.2).reserveSeam m = some t →
      seam.toNat < e.1 ∧ exec (.reserve ⟨src, none⟩ seam) s = .next ((t.seamMsg e.2.leader 8 e.1 0).seamMsg src 2 seam.toNat 0))) ∧
  (∀ (s : State) (src : Nat) (seam : Word), kget s.seams seam.toNat = none →
    exec (.reserve ⟨src, none⟩ seam) s = .next (s.seamMsg src 3 seam.toNat 0)) ∧
  (∀ (s : State) (src : Nat) (seam : Word) (m : Seam), Leads s seam m →
    (m.phase = .reserving → everyDevice m (joined m src) → exec (.reserved ⟨src, none⟩ seam) s = .next
      ((s.setSeam seam.toNat { m with phase := .committing, answers := [], start := (s.core 0).cycles }).seamAll m 4 seam.toNat)) ∧
    (m.phase = .reserving → ¬ everyDevice m (joined m src) →
      exec (.reserved ⟨src, none⟩ seam) s = .next (s.setSeam seam.toNat { m with answers := joined m src })) ∧
    (m.phase = .committing → everyDevice m (joined m src) → exec (.ready ⟨src, none⟩ seam) s = .next
      ((s.setSeam seam.toNat { m with phase := .resident, answers := [], fails := 0 }).seamAll m 6 seam.toNat)) ∧
    (m.phase = .committing → ¬ everyDevice m (joined m src) →
      exec (.ready ⟨src, none⟩ seam) s = .next (s.setSeam seam.toNat { m with answers := joined m src })) ∧
    (Pending m → exec (.busy ⟨src, none⟩ seam) s = .next (attemptFails s seam.toNat m src) ∧
      exec (.revoke ⟨src, none⟩ seam) s = .next (attemptFails s seam.toNat m m.lastBusy) ∧
      (m.start + 1048576 ≤ (s.core 0).cycles → ∃ p, exec (.rendezvousTimeout seam) s = .next (attemptFails s seam.toNat m p)) ∧
      ((s.core 0).cycles < m.start + 1048576 → exec (.rendezvousTimeout seam) s = .next s)) ∧
    (m.phase = .idle → m.retry ≠ 0 → m.retry ≤ (s.core 0).cycles → s.member0Waits m = true → exec (.rendezvousRetry seam) s = .next
      ((s.setSeam seam.toNat { m with phase := .reserving, answers := [], start := (s.core 0).cycles, retry := 0 }).seamAll
        { m with phase := .reserving, answers := [], start := (s.core 0).cycles, retry := 0 } 1 seam.toNat)) ∧
    ((s.core 0).cycles < m.retry → exec (.rendezvousRetry seam) s = .next s)) ∧
  (∀ (s : State) (src : Nat) (seam : Word) (m0 : Seam), kget s.seams seam.toNat = some m0 →
    (m0.seen.getLsbD 4 = false →
      let m := { m0 with seen := m0.seen ||| 0x10 }
      let s1 := s.setSeam seam.toNat m
      ((∀ x ∈ s.membersHere m0, ∃ f, x.2.2.phase = .reserved f) → s.membersHere m0 ≠ [] →
        exec (.commit ⟨src, none⟩ seam) s = .next (s1.commitSeam seam.toNat m)) ∧
      ((∀ e ∈ m0.locals, s.hasReserved e.2 = false) → (∃ e ∈ m0.locals, (s.waitingOf e.2).isSome = true) →
        exec (.commit ⟨src, none⟩ seam) s = .next s1)) ∧
    (m0.seen.getLsbD 7 = false → let m := { m0 with seen := 0x80 }
      exec (.release ⟨src, none⟩ seam) s = .next (((s.setSeam seam.toNat m).setSeam seam.toNat { m with going := false }).freeSeam m))) ∧
  (∀ (s : State) (m : Seam) (i gk f : Nat) (g : Group), m.locals = [(i, gk)] → kget s.groups gk = some g → ksorted s.groups = true →
    (g.phase = .reserved none → s.freeSeam m = { s with groups := kdel s.groups gk }) ∧
    (g.phase = .reserved (some f) → s.freeSeam m = s.setGroup gk { g with phase := .saved f }) ∧
    (∀ d, kget s.grids (gkGrid gk) = some d → g.phase = .reserved none → ∃ t, s.commitSeam 0 m = t ∧
      ∃ g', kget t.groups gk = some g' ∧ g'.phase = .commit none ∧ g'.cores = g.cores ∧ g'.slots = g.slots))

/-- 02 R47; 10 R307; 15 R388; 17 R431: the leader turns a STOPREQ of a resident seam into STOP, each member stops with its decision,
R319's when a checkpoint stops it and a save if it can be saved under an emergency fence, and once every device has answered STOPPED
the seam is saved when no member drains, else goes on; a member that must leave and has just been committed asks to be stopped
again; detached members are recorded, and when all are, EXITDONE completes the held exits. -/
def Sys2Proof.Cert.SeamsStopAndDetach : Prop :=
  (∀ (s : State) (src : Nat) (seam : Word) (m : Seam), Leads s seam m →
    (m.phase = .resident → exec (.stopreq ⟨src, none⟩ seam) s = .next
      ((s.setSeam seam.toNat { m with phase := .stopping, answers := [], decs := 0 }).seamAll m 10 seam.toNat)) ∧
    (m.phase ≠ .resident → exec (.stopreq ⟨src, none⟩ seam) s = .next s) ∧
    (∀ dec : Word, m.phase = .stopping →
      let all := m.decs ||| dec
      let drains := ∃ i, i < m.members ∧ bitsOf all.toNat (2 * i) 2 = 1
      (¬ everyDevice m (joined m src) →
        exec (.stopped ⟨src, none⟩ seam dec) s = .next (s.setSeam seam.toNat { m with decs := all, answers := joined m src })) ∧
      (everyDevice m (joined m src) → ¬ drains → exec (.stopped ⟨src, none⟩ seam dec) s = .next
        ((s.setSeam seam.toNat { m with decs := all, phase := .idle, answers := [] }).seamAll m 12 seam.toNat)) ∧
      (everyDevice m (joined m src) → drains → exec (.stopped ⟨src, none⟩ seam dec) s = .next
        ((s.setSeam seam.toNat { m with decs := all, phase := .resident, answers := [] }).seamAll m 6 seam.toNat))) ∧
    (∀ i, i < 16 → ∃ t, exec (.detached ⟨src, none⟩ seam i) s = .next t ∧ t.groups = s.groups ∧ t.mem = s.mem ∧
      (∃ m', kget t.seams seam.toNat = some m' ∧ m'.dets = m.dets ||| BitVec.ofNat 16 (2 ^ i)) ∧
      ((∃ j, j < m.members ∧ j ≠ i ∧ m.dets.getLsbD j = false) → t.ctl = s.ctl ∧ t.fab = s.fab) ∧
      ((∀ j, j < m.members → j ≠ i → m.dets.getLsbD j = true) → m.done = false → ∃ u : State, t = u.seamAll m 14 seam.toNat ∧
        u.ctl = s.ctl ∧ u.fab = s.fab ∧ ∃ m' : Seam, kget u.seams seam.toNat = some m' ∧ m'.done = true))) ∧
  (∀ (s : State) (src : Nat) (seam : Word) (m : Seam) (i gk : Nat) (g : Group), kget s.seams seam.toNat = some m →
    m.locals = [(i, gk)] → kget s.groups gk = some g →
    let acted := fun (seen : BitVec 16) => s.setSeam seam.toNat { m with seen := seen }
    let goes := { g with phase := if g.wks = [] then .held else .run }
    (m.seen.getLsbD 10 = false → let s1 := acted ((m.seen ||| 0x400) &&& ~~~0x40)
      (g.phase = .run ∨ g.phase = .held → exec (.stop ⟨src, none⟩ seam) s = .next (s1.setGroup gk { g with
        phase := .stopping (if s.emergency g then (if s.canSave gk then .save else .drain)
          else if s.inCkpt gk then s.decideCkpt gk else s.decision gk) })) ∧
      (g.phase = .gone → exec (.stop ⟨src, none⟩ seam) s = .next (s1.seamMsg m.leader 11 seam.toNat 0))) ∧
    (m.seen.getLsbD 12 = false → g.phase = .stopped .save → exec (.save ⟨src, none⟩ seam) s = .next ((acted 0x1000).beginSave gk)) ∧
    (m.seen.getLsbD 6 = false → let s1 := acted ((m.seen ||| 0x40) &&& ~~~0x1400)
      (∀ d, g.phase = .stopped d → s.mgmt.clop = none → exec (.go ⟨src, none⟩ seam) s = .next (s1.setGroup gk goes)) ∧
      (g.phase = .commit none → s.mustLeave gk g = false → exec (.go ⟨src, none⟩ seam) s = .next (s1.setGroup gk goes)) ∧
      (g.phase = .commit none → s.mustLeave gk g = true →
        exec (.go ⟨src, none⟩ seam) s = .next ((s1.setGroup gk goes).seamMsg m.leader 9 seam.toNat 0))) ∧
    (∀ d, kget s.grids (gkGrid gk) = some d → g.wks = [] → (∀ j, j < d.desc.warps → g.retired.getLsbD j = true) →
      let done := fun (fr : List Nat) => ∃ t g' d' m', exec (.exitdone ⟨src, none⟩ seam) s = .next t ∧ kget t.groups gk = some g' ∧
        g'.phase = .gone ∧ t.mem = s.mem ∧ t.warps = s.warps ∧ kget t.grids (gkGrid gk) = some d' ∧ d'.fin = d.fin + 1 ∧
        d'.frames = fr ∧ kget t.seams seam.toNat = some m' ∧ m'.done = true
      (g.phase = .held → done d.frames) ∧
      (∀ fr, g.phase = .saved fr ∨ g.phase = .reserved (some fr) → done (dropNat d.frames fr))))

/-- 10 R305, 10 R306, 10 R307, 02 R47, 15 R388, 15 R389: rendezvous, stop, save and release of seams, with
each message acted on once (11 R330; 17 R420): the parts above. Which reservations of higher seams are given up is log 36, that a
member which was to be restored keeps its frame is log 37, that the bound of the rendezvous starts again at COMMIT is log 38, and that
the count of failures goes to 0 when the seam starts is log 39. -/
def Obligations.SeamRendezvousAndDetachment : Prop := SeamMessagesActOnce ∧ SeamsRendezvous ∧ SeamsStopAndDetach

/-- 11 R321, R324, R328: the first GiB of the HDM range is the command window, GiB i + 1 host window i. The host reads and writes the
doublewords of the command window; an access through an enabled host window becomes one of the window's context at VBASE + offset,
and through one that is not enabled reads zeros or does nothing; a non-posted request at the landing port is answered as
unsupported. -/
def Sys2Proof.Cert.HostAccessesAreServed : Prop :=
  (∀ (s : State) (base off n : Nat) (data : List Byte), s.host.up = true → off < 2 ^ 30 →
    exec (.hostWindowAccess base (base + off) (.read n)) s = .next (s.emit (.windowData ((List.range n).map fun i =>
      BitVec.ofNat 8 (s.windowRead ((off + i) / 8 * 8) / 2 ^ (8 * ((off + i) % 8)))))) ∧
    (off % 8 = 0 → data.length = 8 →
      exec (.hostWindowAccess base (base + off) (.write data)) s = .next (s.windowWrite off (BitVec.ofNat 64 (leNat data))))) ∧
  (∀ (s : State) (base win off : Nat) (fn : BitVec 3) (ty : BitVec 4) (data swap : DWord), s.host.up = true → win < 15 → off < 2 ^ 30 →
    (s.hostWin win).en = true → exec (.hostWindowAccess base (base + 0x40000000 * (win + 1) + off) (.atomic fn ty data swap)) s = .next ((s.addOp
      { who := .host s.opNo, ctx := winCtx win, gk := 0, insn := { pc := 0, word := 0, ext := 0 }, lanes := 0, slot := none,
        hold := [], want := [], epoch := 0, kind := .acc (.atom fn.toNat ty.toNat true false 0 5),
        elems := [Elem.virt 0 ((s.hostWin win).vbase.toNat * 2 ^ 30 + off) (esize ty.toNat) data swap 0] }).transOp s.opNo)) ∧
  (∀ (s : State) (base win off n : Nat) (bs : List Byte), s.host.up = true → win < 15 → off < 2 ^ 30 → 0 < n → bs ≠ [] →
    let va := (s.hostWin win).vbase.toNat * 2 ^ 30 + off
    let hdm := base + 0x40000000 * (win + 1) + off
    let op := fun (kind : Acc) (es : List Elem) => ({
      who := .host s.opNo, ctx := winCtx win, gk := 0, kind := .acc kind, elems := es,
      insn := { pc := 0, word := 0, ext := 0 }, lanes := 0, slot := none, hold := [], want := [], epoch := 0 } : Op)
    ((s.hostWin win).en = true →
      exec (.hostWindowAccess base hdm (.read n)) s = .next ((s.addOp (op .recRd (landElems va (List.replicate n 0)))).transOp s.opNo) ∧
      exec (.hostWindowAccess base hdm (.write bs)) s = .next ((s.addOp (op .store (landElems va bs))).transOp s.opNo)) ∧
    ((s.hostWin win).en = false → exec (.hostWindowAccess base hdm (.read n)) s = .next (s.emit (.windowData (List.replicate n 0))) ∧
      exec (.hostWindowAccess base hdm (.write bs)) s = .next s)) ∧
  (∀ (s : State) (base addr : Nat) (acc : HostAcc), s.host.up = false ∨ addr < base ∨ base + 2 ^ 34 ≤ addr →
    exec (.hostWindowAccess base addr acc) s = .next s) ∧
  (∀ (va i : Nat) (bs : List Byte), i < bs.length → ∃ e ∈ landElems va bs, e.va ≤ va + i ∧ va + i < e.va + e.n ∧ e.n ≤ 8 ∧
    e.va / 8 = (e.va + e.n - 1) / 8 ∧ e.data.toNat / 2 ^ (8 * (va + i - e.va)) % 256 = (bs.getD i 0).toNat) ∧
  (∀ (s : State) (req : BitVec 16), s.mgmt.stage = 9 → exec (.nonPostedRequest req) s = .next (s.emit (.unsupported req)))

/-- 03 R92, 03 R93, 11 R321, 11 R324, 11 R328, 11 R329, 17 R426: landing writes are decoded, and host accesses are served: the
parts above. That a write to a window which is not armed records REASON 0 is log 56. -/
def Obligations.LandingAndHostAccesses : Prop := LandingWritesAreDecoded ∧ HostAccessesAreServed

/-- 08 R257; 11 R320, R326, R327; 17 R424, R425: answers of the host end the requests they name; the oldest entry leaves the write
buffer, and a read of the port follows it; a recalled line comes home with the host's data; when the link goes down, buffered
stores are dropped, counted and logged, their groups marked, and warps have no store that waits to be accepted; while it is down a
store for the host is dropped as one entry, and a read or AtomicOp ends with HOST_LINK_DOWN; when it comes up, nothing else changes. -/
def Obligations.HostLinkAnswersAndFails : Prop :=
  (∀ (s : State) (id : Nat) (bs : List Byte) (v : DWord) (r : HostReq), s.host.up = true → kget s.host.reqs id = some r →
    let t := { s with host := { s.host with reqs := kdel s.host.reqs id } }
    (r.n ≠ 0 → exec (.hostPortResponse (.readData id bs)) s = .next (((t.hostAccept id).hostRead r bs).flushStores) ∧
      exec (.hostPortResponse (.atomicOld id v)) s = .next (t.hostAtom r v)) ∧
    (∀ m (x : Mend), r.n = 0 → r.warp = some (.mend m) → kget s.mends m = some x → x.hst.rd = some id → s.host.loose = [] →
      exec (.hostPortResponse (.flushed id)) s = .next (t.setMend m { x with hst := { x.hst with rd := none, unacc := false } }))) ∧
  (∀ (s : State) (r : HostReq) (bs : List Byte) (v : DWord) (o : Op) (i : Nat) (e : Elem), r.elems = [i] → kget s.ops r.op = some o →
    o.elems[i]? = some e → e.done = false → o.isAcc = true →
    let got := fun (t : State) (x : Nat) => (t.setElem r.op i { e with got := some (BitVec.ofNat 64 x), done := true }).settleOp r.op
    s.hostRead r bs = got (s.fillHost r.op o r bs e) (leNat ((List.range e.n).map fun j => bs.getD (e.hostAt + j - r.addr) 0)) ∧
    (∀ fn ty ret add ord scope, o.kind = .acc (.atom fn ty ret add ord scope) → let old := v.toNat % 2 ^ (8 * e.n)
      s.hostAtom r v = got (s.pokeHost r.op o e (atomNew fn ty old e.data.toNat e.swap.toNat)) old) ∧
    ((∀ a, e.place ≠ some (.host a true)) → s.fillHost r.op o r bs e = s)) ∧
  (∀ (s : State) (b : HostWr) (rest : List HostWr), s.host.up = true → s.host.buf = b :: rest →
    let t : State := { s with
      host := { s.host with
        buf := rest,
        loose := s.host.loose ++ [{ num := s.opNo, who := b.who, gk := b.gk, addr := b.addr, op := b.op, elems := b.elems }] },
      ctl := { s.ctl with out := s.ctl.out ++ [.hostWrite b.addr b.data b.mask] } }
    (b.who = .host 0 → exec (.hostPortResponse .drained) s = .next t.flushStores) ∧
    (∀ wk w, b.who = .warp wk → kget s.warps wk = some w → w.gk = b.gk → exec (.hostPortResponse .drained) s =
      .next ({ t with warps := kset s.warps wk { w with hst := { w.hst with last := some b.addr, unacc := true } } }).flushStores)) ∧
  (∀ (s : State) (l : HostLoose), s.host.loose.getLast? = some l →
    ((∃ e ∈ s.host.reqs, l.num ≤ e.1 ∧ e.2.n = 0) → s.flushStores = s) ∧
    ((∀ e ∈ s.host.reqs, l.num ≤ e.1 → e.2.n ≠ 0) → s.flushStores = ({ s.bumpOp with host := { s.host with
      reqs := kset s.host.reqs s.opNo { op := 0, elems := [], n := 0, warp := none, addr := l.addr } } }).emit (.hostFlush s.opNo l.addr))) ∧
  (∀ (s : State) (line : Nat) (bs : List Byte), s.host.up = true → (2 * line + 1) ∈ s.mem.hostLines → s.fab.inHeld = [] →
    (s.mem.leaseAt (line * 128)).live = true → s.mem.valid (line * 128) = true → (s.mem.sec (line * 128 / 4096)).lost = false →
    bs.length = 128 → s.mem.bytes.wf = true →
    ∃ t, exec (.hostPortResponse (.birsp line (some bs))) s = .next t ∧ (2 * line + 1) ∉ t.mem.hostLines ∧ t.mem.valid (line * 128) = true ∧
      (∀ i, i < 128 → t.mem.byte (line * 128 + i) =
        if s.inLining false (line * 128 + i) then s.mem.byte (line * 128 + i) else bs.getD i 0) ∧ t.ops = s.ops) ∧
  (∀ (s : State) (k : Nat) (o : Op) (xs : List (Nat × Elem)), s.host.up = false → xs ≠ [] →
    (o.isStore = false → s.sendHost k o xs = s.gather k o o.progress [failedOf cHostDown 0 (xs.map (·.2))]) ∧
    (o.isStore = true → let t := s.sendHost k o xs
      t.host.loss.toNat = min 0xFFFFFFFF (s.host.loss.toNat + 1) ∧ t.host.buf = s.host.buf ∧ t.ctl = s.ctl ∧ t.mem = s.mem ∧
      ∀ g, kget s.groups o.gk = some g → kget t.groups o.gk = some { g with hostMark := true })) ∧
  (∀ (s : State), s.host.up = true → s.ops = [] → s.host.reqs = [] → s.fab.inHeld = [] → s.host.loss.toNat + s.host.buf.length < 2 ^ 32 →
    ∃ t, exec .hostLinkDown s = .next t ∧ t.host.up = false ∧ t.host.buf = [] ∧ t.mem.hostLines = [] ∧
      t.host.loss.toNat = s.host.loss.toNat + s.host.buf.length ∧
      (∀ b ∈ s.host.buf, ∀ g, kget s.groups b.gk = some g → ∃ g', kget t.groups b.gk = some g' ∧ g'.hostMark = true) ∧
      (∀ gk g, kget s.groups gk = some g → (∀ b ∈ s.host.buf, b.gk ≠ gk) → (∀ l ∈ s.host.loose, l.gk ≠ gk) → kget t.groups gk = some g) ∧
      (∀ wk w, kget s.warps wk = some w → ∃ w', kget t.warps wk = some w' ∧ w'.hst.unacc = false ∧ w'.v = w.v ∧ w'.s = w.s) ∧
      t.mem.bytes = s.mem.bytes ∧ t.mem.pool = s.mem.pool) ∧
  (∀ (s : State), (s.host.up = false → s.mgmt.stage = 9 → exec .hostLinkUp s = .next { s with host := { s.host with up := true } }) ∧
    (s.host.up = true → exec .hostLinkUp s = .next s) ∧ (s.host.up = false → exec .hostLinkDown s = .next s))

namespace Sys2Proof.Cert

/-- A request of an OP has come to this device over a port that is up, as the next flit of its link's sequence, is one that ACAP names, and passes the range table; no migration hold keeps it. -/
def Arrives (s : State) (port : Nat) (f : Flit) (op : Byte) : Prop :=
  f.op = op ∧ (s.kport port).up = true ∧ f.seq = (s.kport port).rx ∧ f.dest = s.mgmt.peernum ∧ flitKnown f = true ∧ (f.seam = false → s.rangeOk f = true) ∧
  (f.seam = false → f.carve = false → s.holderOf (f.addr.toNat / 65536) = none)

/-- It is for local memory whose sector is valid and of this device alone. -/
def AtHome (s : State) (f : Flit) : Prop :=
  f.seam = false ∧ f.carve = false ∧ f.addr.toNat % (16 * 2 ^ f.size.toNat) = 0 ∧ f.size.toNat ≤ 3 ∧
  (∀ w ∈ s.mem.fwds, w.page ≠ f.addr.toNat / 65536) ∧ (s.mem.leaseAt f.addr.toNat).live = true ∧
  s.mem.valid f.addr.toNat = true ∧ (s.mem.sec (f.addr.toNat / 4096)).lost = false ∧
  (2 * (f.addr.toNat / 128)) ∉ s.mem.hostLines ∧ (2 * (f.addr.toNat / 128) + 1) ∉ s.mem.hostLines

/-- The answer to a request: same TAG, route version, size, address and window, to where it came from, under the port's next link
sequence number. -/
def answerTo (s : State) (port : Nat) (f : Flit) (op : Byte) (data : List Byte) : Flit :=
  { f with op := op, dest := f.source, source := s.mgmt.peernum, data := data, mask := 0, seq := (s.kport port).tx, swz := 0 }

/-- The answer leaves on the port of the request. -/
def answered (s : State) (port : Nat) (f : Flit) (op : Byte) (data : List Byte) : State :=
  (s.setCtl { s.ctl with out := s.ctl.out ++ [.flit port (answerTo s port f op data)] }).modKport port fun p => { p with tx := p.tx + 1 }

/-- An answer of an OP fits an outstanding request of this device, which serves element i of operation k. -/
def FitsRequest (s : State) (port : Nat) (f : Flit) (op : Byte) (r : KReq) (k i : Nat) (o : Op) (e : Elem) : Prop :=
  f.op = op ∧ (s.kport port).up = true ∧ f.seq = (s.kport port).rx ∧ f.dest = s.mgmt.peernum ∧ kget s.fab.reqs (port * 4096 + f.tag.toNat) = some r ∧
  r.flit.rv = f.rv ∧ r.flit.dest = f.source ∧ r.back = none ∧ r.op = some k ∧ r.elems = [i] ∧ kget s.ops k = some o ∧
  o.elems[i]? = some e ∧ e.done = false

/-- The arrivals of a flit on a port, each with its OP (11 Table 11-7). -/
def flitEvents (port : Nat) (f : Flit) : List (Nat × Instr) :=
  [(1, .flitRead port f), (2, .flitWrite port f), (3, .atomicWithResult port f), (4, .atomicWithoutResult port f), (5, .reduction port f),
   (0x10, .readData port f), (0x11, .writeDone port f), (0x12, .atomicResult port f), (0x13, .notImplemented port f), (0x14, .refused port f)]

/-- The request has its answer: it leaves, and its port has passed a flit on. -/
def withoutReq (s : State) (port : Nat) (f : Flit) : State :=
  let t := s.flitIn port f
  { t with fab := { t.fab with reqs := kdel t.fab.reqs (port * 4096 + f.tag.toNat) } }

/-- The element has a value. -/
def elemGot (s : State) (k i : Nat) (e : Elem) (v : DWord) : State := (s.setElem k i { e with got := some v, done := true }).settleOp k

end Sys2Proof.Cert

/-- 07 R221; 11 R331, R332, R335; 17 R423: a request at home is performed and answered: a read with the bytes, a write of its enabled
bytes, an atomic with or without its old value, a reduction; what ACAP lacks is answered NOT_IMPLEMENTED, what the range table does
not allow is REFUSED, and what names another device is discarded and counted; flits are passed on in their link's sequence, and the
one that waits for its turn follows. -/
def Sys2Proof.Cert.PeersRequestsArePerformed : Prop :=
  (∀ (s : State) (port : Nat) (f : Flit), Arrives s port f 1 → AtHome s f → exec (.flitRead port f) s =
    .next (answered (s.flitIn port f) port f 0x10 ((List.range (16 * 2 ^ f.size.toNat)).map fun i => s.mem.byte (f.addr.toNat + i)))) ∧
  (∀ (s : State) (port : Nat) (f : Flit), Arrives s port f 2 → AtHome s f → s.grids = [] → s.mem.bytes.wf = true → ∃ t,
    exec (.flitWrite port f) s = .next t ∧ t.ctl.out = s.ctl.out ++ [.flit port (answerTo s port f 0x11 [])] ∧ t.ops = s.ops ∧
    (∀ a, t.mem.byte a = if f.addr.toNat ≤ a ∧ a < f.addr.toNat + 16 * 2 ^ f.size.toNat ∧ f.mask.getLsbD (a - f.addr.toNat) = true
      then f.data.getD (a - f.addr.toNat) 0 else s.mem.byte a)) ∧
  (∀ (s : State) (port : Nat) (f : Flit), AtHome s f → s.grids = [] →
    let p := Place.loc f.addr.toNat .loc
    let n := esize f.typ.toNat
    let old := s.placeRd p n
    let wr := (s.flitIn port f).placeWr p n (atomNew f.aop.toNat f.typ.toNat old (leNat (f.data.take 8)) (leNat ((f.data.drop 8).take 8)))
    (Arrives s port f 3 → exec (.atomicWithResult port f) s = .next (answered wr port f 0x12 (leBytes 8 old))) ∧
    (Arrives s port f 4 → exec (.atomicWithoutResult port f) s = .next (answered wr port f 0x11 [])) ∧
    (Arrives s port f 5 → exec (.reduction port f) s = .next (((List.range (16 * 2 ^ f.size.toNat / n)).foldl
      (fun s i => s.redElem p f.addr.toNat n f i) (s.flitIn port f)).answer port f 0x11 []))) ∧
  (∀ (s : State) (port : Nat) (f : Flit), (s.kport port).up = true →
    let run := fun (t : State) => (f.op = 1 → exec (.flitRead port f) s = .next t) ∧ (f.op = 2 → exec (.flitWrite port f) s = .next t) ∧
      (f.op = 3 → exec (.atomicWithResult port f) s = .next t) ∧ (f.op = 4 → exec (.atomicWithoutResult port f) s = .next t) ∧
      (f.op = 5 → exec (.reduction port f) s = .next t)
    let fresh := f.seq = (s.kport port).rx
    (fresh → f.dest ≠ s.mgmt.peernum → run ((s.flitIn port f).flitDrop port)) ∧
    (fresh → f.dest = s.mgmt.peernum → flitKnown f = false → run (answered (s.flitIn port f) port f 0x13 [])) ∧
    (fresh → f.dest = s.mgmt.peernum → flitKnown f = true → f.seam = false → s.rangeOk f = false →
      run (answered (s.flitIn port f) port f 0x14 [0x22]))) ∧
  (∀ (s : State) (l : Link), let t := s.linkIn l
    let p := s.kport l.port
    let n := (l.seq + 1).toNat
    t.kport l.port = { p with crc := kdel p.crc l.seq.toNat, rx := l.seq + 1, early := kdel p.early n } ∧
    (∀ x, x ≠ l.port → t.kport x = s.kport x) ∧ t.mem = s.mem ∧ t.ops = s.ops ∧ (kget p.early n = none → t.ctl = s.ctl) ∧
    ∀ e, kget p.early n = some e → t.ctl = { s.ctl with selfq := s.ctl.selfq ++ [e] }) ∧
  (∀ (s : State) (port : Nat) (f : Flit), ∀ x ∈ flitEvents port f, (f.op.toNat ≠ x.1 → exec x.2 s = .next s) ∧
    (f.op.toNat = x.1 → OutOfTurn x.2 { port := port, seq := f.seq } s)) ∧
  (∀ (s : State) (l : Link), OutOfTurn (.flitDiscard l) l s) ∧
  (∀ (s : State) (l : Link), (s.kport l.port).up = true → l.seq = (s.kport l.port).rx →
    ∃ t, exec (.flitDiscard l) s = .next t ∧ (t.kport l.port).rx = l.seq + 1 ∧
    (t.kport l.port).discard.toNat = min 255 ((s.kport l.port).discard.toNat + 1) ∧ t.mem = s.mem ∧ t.ops = s.ops ∧ t.ctl.out = s.ctl.out)

/-- 11 R332; 17 R421 to R423: an answer that fits an outstanding request gives the element its value: the bytes read, 0 for a write,
the old value of an atomic; NOT_IMPLEMENTED and REFUSED end it with the cause, once no other request of the instruction is
unanswered (15 R378, log 61); an answer that no request fits is discarded. -/
def Sys2Proof.Cert.PeersAnswersEndRequests : Prop :=
  (∀ (s : State) (port k i : Nat) (f : Flit) (r : KReq) (o : Op) (e : Elem) (a : Nat) (cv : Bool), e.place = some (.peer f.source.toNat a cv false) →
    (FitsRequest s port f 0x10 r k i o e → r.flit.op = 1 → exec (.readData port f) s = .next (elemGot (withoutReq s port f) k i e
      (BitVec.ofNat 64 (leNat ((List.range e.n).map fun j => f.data.getD (a + j - r.flit.addr.toNat) 0)))).sendHeld) ∧
    (FitsRequest s port f 0x11 r k i o e → r.flit.op = 4 ∨ r.flit.op = 5 →
      exec (.writeDone port f) s = .next (elemGot ((withoutReq s port f).pokeRemote k o e none) k i e 0).sendHeld) ∧
    (FitsRequest s port f 0x11 r k i o e → r.flit.op = 2 → exec (.writeDone port f) s =
      .next (elemGot ((withoutReq s port f).pokeRemote k o e (some e.data.toNat)) k i e 0).sendHeld) ∧
    (FitsRequest s port f 0x12 r k i o e → r.flit.op = 3 →
      let old := leNat (f.data.take e.n)
      exec (.atomicResult port f) s = .next (elemGot ((withoutReq s port f).pokeRemote k o e
        (some (atomNew r.flit.aop.toNat r.flit.typ.toNat old e.data.toNat e.swap.toNat))) k i e (BitVec.ofNat 64 old)).sendHeld) ∧
    (FitsRequest s port f 0x13 r k i o e → r.flit.op = 3 ∨ r.flit.op = 4 ∨ r.flit.op = 5 →
      exec (.notImplemented port f) s = .next ((withoutReq s port f).reqFail r 0x23).sendHeld) ∧
    (FitsRequest s port f 0x14 r k i o e →
      exec (.refused port f) s = .next ((withoutReq s port f).reqFail r (f.data.headD 0).toNat).sendHeld)) ∧
  (∀ (s : State) (r : KReq) (k i : Nat) (o : Op) (e : Elem) (cause : Nat), r.back = none → r.op = some k → r.elems = [i] →
    kget s.ops k = some o → o.elems[i]? = some e → o.gathers = true → o.fails = [] → o.hold = [] → o.want = [] →
    (let detail := if 0x20 ≤ cause then r.flit.dest.toNat else 0
     let o' : Op := { o with elems := setAt o.elems i { e with sent := false }, fails := [failedOf cause detail [e]] }
     ((∀ j x, j ≠ i → o.elems[j]? = some x → x.sent = false ∨ x.done = true) →
       s.reqFail r cause = s.failOp k o' cause detail e.va o.progress (elemLanes [e])) ∧
     ((∃ j x, j ≠ i ∧ o.elems[j]? = some x ∧ x.sent = true ∧ x.done = false) →
       s.reqFail r cause = { s with ops := kset s.ops k o' }))) ∧
  (∀ (s : State) (k : Nat) (o : Op) (e : Elem) (p : Place) (c : Nat), e.place = some p → o.l1Core = some c →
    (s.core c).fresh p k = true →
    s.pokeRemote k o e none = (s.modCore c fun x => (x.l1Drop p).touch p s.opNo) ∧
    ∀ v, s.pokeRemote k o e (some v) = s.modCore c fun x => (x.l1Poke (s.frontsAt x p) p (leBytes e.n v)).touch p s.opNo) ∧
  (∀ (s : State) (port : Nat) (f : Flit), (s.kport port).up = true → f.seq = (s.kport port).rx → f.dest = s.mgmt.peernum →
    kget s.fab.reqs (port * 4096 + f.tag.toNat) = none →
    (f.op = 0x10 → exec (.readData port f) s = .next (s.flitIn port f)) ∧ (f.op = 0x11 → exec (.writeDone port f) s = .next (s.flitIn port f)) ∧
    (f.op = 0x12 → exec (.atomicResult port f) s = .next (s.flitIn port f)) ∧
    (f.op = 0x13 → exec (.notImplemented port f) s = .next (s.flitIn port f)) ∧
    (f.op = 0x14 → exec (.refused port f) s = .next (s.flitIn port f)))

/-- 07 R221, 11 R331, 11 R332, 11 R335, 17 R421, 17 R422, 17 R423, 11 Table 11-7: requests of peers are performed, and answers of
peers end requests: the parts above. The order in which the gathered requests of an instruction end it is log 61, that the DETAIL of
a REFUSED answer with a cause below 0x20 is 0 is log 58, and that flits number from 0 and wait for their turn is log 93. -/
def Obligations.PeerRequestsAndAnswers : Prop := PeersRequestsArePerformed ∧ PeersAnswersEndRequests

namespace Sys2Proof.Cert

/-- Nibble h of a plane map. -/
def planeAt (f : Fabric) (h : Nat) : Nat := bitsOf f.map.toNat (4 * h) 4

/-- Lanes of a port that carry flits. -/
def lanesUp (p : KPort) : Nat := ((List.range 8).filter fun i => !p.retired.getLsbD i && !p.recal.getLsbD i).length

/-- A management command is served: package reset is released, and the secure session is established (12 R361). -/
def Session (s : State) : Prop := s.mgmt.asserted = false ∧ s.mgmt.session = true

end Sys2Proof.Cert

/-- 11 R334; 17 R420 to R422: a GO starts the remap of a slice to a plane that is up, and commits once no request of the slice is
unanswered, with the route version inverted; a port that goes down gives its slices to the next plane that is up and ends its
requests, and sends its scheduler messages again; a request that has had no answer for 2^21 cycles of its die, and none before, is
ended the same way, and its tag is withheld for 2^22 more; a port that comes up takes no slice. -/
def Sys2Proof.Cert.PlanesAreRemapped : Prop :=
  (∀ (s : State) (h p : Nat), s.host.up = false → exec (.planeMapUpdate h p) s = .next s) ∧
  (∀ (s : State) (h p : Nat), h < 16 → p < 16 → s.host.up = true →
    (s.fab.busy = false → s.fab.planeUp p = true → exec (.planeMapUpdate h p) s =
      .next { s with fab := { s.fab with busy := true, slice := BitVec.ofNat 4 h, plane := BitVec.ofNat 4 p } }) ∧
    (s.fab.busy = true ∨ s.fab.planeUp p = false → exec (.planeMapUpdate h p) s = .next s)) ∧
  (∀ (s : State), s.fab.busy = true →
    ((∃ e ∈ s.fab.reqs, e.2.slice = s.fab.slice.toNat) → exec .planeRemapCommit s = .next s) ∧
    ((∀ e ∈ s.fab.reqs, e.2.slice ≠ s.fab.slice.toNat) → s.fab.held = [] → s.fab.planeUp s.fab.plane.toNat = true →
      ∃ t, exec .planeRemapCommit s = .next t ∧ t.fab.busy = false ∧ planeAt t.fab s.fab.slice.toNat = s.fab.plane.toNat ∧
        (∀ h, h < 16 → h ≠ s.fab.slice.toNat → planeAt t.fab h = planeAt s.fab h ∧ t.fab.rv.getLsbD h = s.fab.rv.getLsbD h) ∧
        t.fab.rv.getLsbD s.fab.slice.toNat = !s.fab.rv.getLsbD s.fab.slice.toNat ∧ t.fab.reqs = s.fab.reqs ∧ t.ctl = s.ctl ∧ t.mem = s.mem)) ∧
  (∀ (f : Fabric) (h p : Nat), h < 16 → p < 16 → planeAt (f.remap h p) h = p ∧
    (f.remap h p).rv.getLsbD h = !f.rv.getLsbD h ∧ ∀ j, j < 16 → j ≠ h → planeAt (f.remap h p) j = planeAt f j ∧
      (f.remap h p).rv.getLsbD j = f.rv.getLsbD j) ∧
  (∀ (s : State) (port q : Nat), port < 16 → (s.kport port).up = true → s.fab.reqs = [] → s.fab.held = [] → s.fab.msgs = [] →
    s.fab.planeUp q = true → q ≠ port → q < 16 → ∃ t, exec (.kagonPortDown port) s = .next t ∧ (t.kport port).up = false ∧
      (∀ n, n ≠ port → t.kport n = s.kport n) ∧
      (∀ h, h < 16 → planeAt s.fab h ≠ port → planeAt t.fab h = planeAt s.fab h) ∧
      (∀ h, h < 16 → planeAt s.fab h = port → t.fab.planeUp (planeAt t.fab h) = true ∧ planeAt t.fab h ≠ port ∧
        t.fab.rv.getLsbD h = !s.fab.rv.getLsbD h) ∧ t.mem = s.mem ∧ t.ops = s.ops) ∧
  (∀ (s : State) (port q : Nat) (m : KReq), port < 16 → (s.kport port).up = true → s.fab.reqs = [] → s.fab.held = [] → s.fab.busy = false →
    s.fab.msgs = [(port, m)] → m.flit.op = 0x20 → m.slice < 16 → planeAt s.fab m.slice = port → s.fab.planeUp q = true → q ≠ port →
    q < 16 → ∃ t, exec (.kagonPortDown port) s = .next t ∧
      (let p := planeAt t.fab m.slice
       p ≠ port ∧ t.fab.planeUp p = true ∧ t.fab.msgs = [(p, m)] ∧
       t.ctl.out = s.ctl.out ++ [.flit p { m.flit with rv := !s.fab.rv.getLsbD m.slice, seq := (s.kport p).tx }])) ∧
  (∀ (s : State) (plane tag : Nat) (r : KReq) (c : Mend), plane < 16 → tag < 4096 → kget s.fab.reqs (plane * 4096 + tag) = some r →
    kget s.mends r.die = some c →
    (c.cycles < r.since + 2 ^ 21 → exec (.kagonRequestTimeout plane tag) s = .next s) ∧
    (r.since + 2 ^ 21 ≤ c.cycles → ∃ t,
      t = { s with fab := { s.fab with reqs := kdel s.fab.reqs (plane * 4096 + tag),
                                       burnt := kset s.fab.burnt (plane * 4096 + tag) (r.die, c.cycles + 2 ^ 22) } } ∧
      exec (.kagonRequestTimeout plane tag) s = .next (t.endRequests [r]) ∧
      (r.flit.op ≠ 1 → s.fab.held = [] → r.back = none → r.op = none → exec (.kagonRequestTimeout plane tag) s = .next t))) ∧
  (∀ (s : State) (plane tag die n : Nat) (c : Mend), kget s.fab.burnt (plane * 4096 + tag) = some (die, n) → kget s.mends die = some c →
    c.cycles < n → s.planeTag plane ≠ some tag) ∧
  (∀ (s : State) (port : Nat), port < 16 →
    ((s.kport port).up = false → 4 ≤ lanesUp (s.kport port) → s.mgmt.fusePlanes.getLsbD port = false → s.fab.held = [] →
      s.mgmt.asserted = false → 6 ≤ s.mgmt.stage.toNat → s.mgmt.untrained = false →
      exec (.kagonPortUp port) s = .next { s with fab := { s.fab with
        ports := kset s.fab.ports port { s.kport port with up := true, tx := 0, rx := 0 } } }) ∧
    ((s.kport port).up = true ∨ lanesUp (s.kport port) < 4 ∨ s.mgmt.asserted = true ∨ s.mgmt.stage.toNat < 6 ∨ s.mgmt.untrained = true →
      exec (.kagonPortUp port) s = .next s))

/-- 11 R330; 17 R416 to R419: each millisecond a lane's health score loses an eighth and gains its corrected bursts; at 128 the lane
is recalibrated, and retired when it was within the last second; LNKCTL does the same, and restores a lane; a port that has fewer
than four lanes goes down, and so does one at the sixteenth CRC failure in succession of one flit. -/
def Sys2Proof.Cert.LanesAreKeptHealthy : Prop :=
  (∀ (p : KPort) (i c : Nat), i < 8 → p.h.length = 8 → p.ages.length = 8 →
    let old := (p.h.getD i 0).toNat
    let h := min 255 (old - old / 8 + min c 64)
    let busy := p.retired.getLsbD i = true ∨ p.recal.getLsbD i = true
    let x := p.health i c
    (h < 128 ∨ busy → (x.h.getD i 0).toNat = h ∧ x.retired = p.retired ∧ x.recal = p.recal) ∧
    (128 ≤ h → ¬ busy → p.ages.getD i 0 < 1000 → x.retired = p.retired ||| BitVec.ofNat 8 (2 ^ i) ∧ x.recal = p.recal) ∧
    (128 ≤ h → ¬ busy → 1000 ≤ p.ages.getD i 0 → x.recal = p.recal ||| BitVec.ofNat 8 (2 ^ i) ∧ x.retired = p.retired ∧
      (x.h.getD i 0).toNat = 0 ∧ x.ages.getD i 1 = 0) ∧
    (∀ j, j ≠ i → x.h.getD j 0 = p.h.getD j 0 ∧ x.ages.getD j 0 = p.ages.getD j 0)) ∧
  (∀ (s : State) (port : Nat) (l : List Nat), port < 16 →
    let x := (List.range 8).foldl (fun (p : KPort) i => p.health i (l.getD i 0)) { s.kport port with replay := (s.kport port).cur, cur := 0 }
    let t := { s with fab := { s.fab with ports := kset s.fab.ports port x } }
    (4 ≤ lanesUp x → exec (.laneHealthUpdate port l) s = .next t) ∧ (lanesUp x < 4 → exec (.laneHealthUpdate port l) s = .next (t.portDown port))) ∧
  (∀ (s : State) (port lane : Nat), Session s → port < 16 → lane < 8 → s.fab.lnkBusy = none →
    let p := s.kport port
    let start := fun (op : Nat) (x : KPort) => ({ s with fab := { s.fab with ports := kset s.fab.ports port x, lnkBusy := some (port, lane, op) } } : State)
    let x := { p with recal := p.recal ||| BitVec.ofNat 8 (2 ^ lane), ages := setAt p.ages lane 0 }
    let y := { p with retired := p.retired ||| BitVec.ofNat 8 (2 ^ lane) }
    (4 ≤ lanesUp x → exec (.lnkctlRecalibrate port lane) s = .next (start 0 x)) ∧
    (lanesUp x < 4 → exec (.lnkctlRecalibrate port lane) s = .next ((start 0 x).portDown port)) ∧
    (4 ≤ lanesUp y → exec (.lnkctlRetire port lane) s = .next { s with fab := { s.fab with ports := kset s.fab.ports port y } }) ∧
    (lanesUp y < 4 → exec (.lnkctlRetire port lane) s = .next s) ∧
    (p.retired.getLsbD lane = true → exec (.lnkctlRestore port lane) s = .next { s with fab := { s.fab with lnkBusy := some (port, lane, 2) } }) ∧
    (p.retired.getLsbD lane = false → exec (.lnkctlRestore port lane) s = .next s)) ∧
  (∀ (s : State) (port lane : Nat), Session s → s.fab.lnkBusy.isSome = true → exec (.lnkctlRecalibrate port lane) s = .next s ∧
    exec (.lnkctlRetire port lane) s = .next s ∧ exec (.lnkctlRestore port lane) s = .next s) ∧
  (∀ (s : State) (port lane : Nat), (s.kport port).recal.getLsbD lane = false → s.fab.lnkBusy ≠ some (port, lane, 2) →
    ∀ ok, exec (.laneRetrainDone port lane ok) s = .next s) ∧
  (∀ (s : State) (port lane op : Nat), lane < 8 → (s.kport port).recal.getLsbD lane = true ∨ op = 2 → s.fab.lnkBusy = some (port, lane, op) →
    let p := s.kport port
    let r := p.recal &&& ~~~(BitVec.ofNat 8 (2 ^ lane))
    let bit := BitVec.ofNat 8 (2 ^ lane)
    let out := fun (x : KPort) => ({ s with fab := { s.fab with ports := kset s.fab.ports port x, lnkBusy := none } } : State)
    let up := fun (x : KPort) => if lanesUp x < 4 then (out x).portDown port else out x
    exec (.laneRetrainDone port lane false) s = .next (up { p with recal := r, retired := p.retired ||| bit }) ∧
    (op = 2 → exec (.laneRetrainDone port lane true) s = .next (up { p with recal := r, retired := p.retired &&& ~~~bit })) ∧
    (op ≠ 2 → exec (.laneRetrainDone port lane true) s = .next (up { p with recal := r }))) ∧
  (∀ (s : State) (l : Link), (s.kport l.port).up = false → exec (.flitCrcFailure l) s = .next s) ∧
  (∀ (s : State) (l : Link), (s.kport l.port).up = true →
    let p := s.kport l.port
    let n := kgetD p.crc l.seq.toNat 0 + 1
    let t := { s with
      fab := { s.fab with ports := kset s.fab.ports l.port { p with crc := kset p.crc l.seq.toNat n, cur := BitVec.ofNat 8 (min 255 (p.cur.toNat + 1)) } },
      ctl := { s.ctl with out := s.ctl.out ++ [.replayRequest l.port l.seq] } }
    (n < 16 → exec (.flitCrcFailure l) s = .next t) ∧ (16 ≤ n → exec (.flitCrcFailure l) s = .next (t.portDown l.port)))

/-- 11 R330, 11 R334, 17 R416, 17 R417, 17 R418, 17 R419, 17 R420, 17 R421, 17 R422: slices are remapped between planes, and
lanes are kept healthy: the parts above. Until when a scheduler message is kept to be sent again is log 52, how flits are numbered from
a port's coming up is log 93, and which cycles R422 counts is log 99. -/
def Obligations.KagonPlanesAndLanes : Prop := PlanesAreRemapped ∧ LanesAreKeptHealthy

/-- 11 R330, R337, R338: a message of a code that its kind allows, the next flit of its link's sequence if a flit brings it, fills the
next free slot of its core's inbound ring; a hold of a page
starts with no request kept, is drained once those that came before are done, and becomes a forward while an entry is free, or
ends with its requests applied; a forward is cleared by its page. -/
def Sys2Proof.Cert.FirmwareMessagesAndMigration : Prop :=
  (∀ (s : State) (core : Nat) (c : Mend) (m : FwMsg), kget s.mends core = some c → c.fwWait = [] → c.sram.wf = true → m.body.length = 23 →
    c.slotValid fwIn c.finPos = false → c.finPos < 64 →
    (∀ l, m.link = some l → (s.kport l.port).up = true ∧ l.seq = (s.kport l.port).rx) →
    let a := fwIn + 32 * c.finPos
    let x := { c.fillSlot fwIn c.finPos (fwBytes m) with finPos := (c.finPos + 1) % 64 }
    let s1 := (m.link.map s.linkIn).getD s
    (0x80 ≤ m.code.toNat → exec (.firmwareMessage core m) s = .next (s1.setMend core x)) ∧
    (m.code = 1 → exec (.migreq core m) s = .next (s1.setMend core x)) ∧ (m.code = 2 → exec (.migdone core m) s = .next (s1.setMend core x)) ∧
    (m.code = 3 → exec (.mignak core m) s = .next (s1.setMend core x)) ∧
    (m.code.toNat < 0x80 → exec (.firmwareMessage core m) s = .next s1) ∧ (m.code ≠ 1 → exec (.migreq core m) s = .next s1) ∧
    mget x.sram a = m.code ∧ (∀ i, i < 23 → mget x.sram (a + 1 + i) = m.body.getD i 0) ∧ mnum x.sram (a + 24) 2 = m.peer.toNat ∧
    (mget x.sram (a + 26)).toNat = m.core.toNat ∧ mget x.sram (a + 31) = 0x80 ∧
    ∀ b, b < a ∨ a + 32 ≤ b → mget x.sram b = mget c.sram b) ∧
  (∀ (s : State) (core : Nat) (m : FwMsg) (l : Link), m.link = some l →
    ∀ e ∈ [Instr.firmwareMessage core m, .migreq core m, .migdone core m, .mignak core m], OutOfTurn e l s) ∧
  (∀ (s : State) (core : Nat) (c : Mend), kget s.mends core = some c →
    (∀ page, c.mig = none → exec (.migctlHold core page) s = .next (s.setMend core { c with mig := some {
      page := page % 2 ^ 29,
      early := (s.ops.filter fun o => o.2.isAcc && o.2.elems.any fun e => e.atPage (page % 2 ^ 29)).map (·.1), flits := [], held := false } })) ∧
    (∀ h, c.mig = some h →
      ((∀ k ∈ h.early, ∀ o, kget s.ops k = some o → ∀ e ∈ o.elems, e.atPage h.page = false) →
        (∀ x ∈ s.fab.inHeld, x.2.1.seam = true ∨ x.2.1.carve = true ∨ x.2.1.addr.toNat / 65536 ≠ h.page) → h.held = false →
        exec (.holdDrained core) s = .next (s.setMend core { c with mig := some { h with held := true } })) ∧
      ((∃ k ∈ h.early, ∃ o, kget s.ops k = some o ∧ ∃ e ∈ o.elems, e.atPage h.page = true) → exec (.holdDrained core) s = .next s) ∧
      (s.mem.fwds.length < 256 →
        let fw : Forward := { page := h.page, peer := bitsOf c.migtgt.toNat 45 14, topg := bitsOf c.migtgt.toNat 16 29 }
        exec (.migctlForward core) s = .next (h.flits.foldl (fun s f => s.forwardFlit fw f)
          { s.setMend core { c with mig := none, full := false } with mem := { s.mem with fwds := s.mem.fwds ++ [fw] } })) ∧
      (256 ≤ s.mem.fwds.length → exec (.migctlForward core) s = .next (s.setMend core { c with full := true })) ∧
      exec (.migctlEndHold core) s = .next (h.flits.foldl (fun s f => s.flitGo f.1 f.2) (s.setMend core { c with mig := none })))) ∧
  (∀ (s : State) (core page : Nat), page < 2 ^ 29 → ∃ t, exec (.migctlClear core page) s = .next t ∧
    (∀ w ∈ t.mem.fwds, w.page ≠ page ∧ w ∈ s.mem.fwds) ∧ (∀ w ∈ s.mem.fwds, w.page ≠ page → w ∈ t.mem.fwds) ∧
    t.mem.bytes = s.mem.bytes ∧ t.ops = s.ops ∧ t.mends = s.mends) ∧
  (∀ (s : State) (fw : Forward) (port : Nat) (f : Flit),
    let a := fw.topg * 65536 + f.addr.toNat % 65536
    let g : Flit := { f with dest := BitVec.ofNat 14 fw.peer, source := s.mgmt.peernum, addr := BitVec.ofNat 45 a }
    (fw.peer = s.mgmt.peernum.toNat → s.forwardFlit fw (port, f) = s.flitHome port { f with addr := BitVec.ofNat 45 a }) ∧
    (fw.peer ≠ s.mgmt.peernum.toNat → s.fab.anyUp = false → s.forwardFlit fw (port, f) = s.answer port f 0x14 [0x24]) ∧
    (fw.peer ≠ s.mgmt.peernum.toNat → s.fab.anyUp = true → s.forwardFlit fw (port, f) =
      s.kSend { slice := sliceOf fw.peer a, flit := g, op := none, elems := [], back := some (port, f), die := port / 4 % 4 }))

/-- 03 R79, 03 R80, 03 R85, 11 R337, 11 R338, 11 R340, 11 R341, 11 R342, 11 R343, 11 R344: lease messages, the end of leases,
firmware messages and migration: the parts above. Which records the firmware writes and which the device does is log 9, and that a
lease expires on the count of its owner is log 91. -/
def Obligations.LeaseAndFirmwareMessages : Prop := LeaseMessagesUseTheirRings ∧ LeasesEndAndPagesAreDropped ∧ FirmwareMessagesAndMigration

/-- 11 R346, R347; 17 R428: CMD 1 starts a partition whose shares are disjoint, whose memory fits and whose key is installed, and
measures it; CMD 2 resets one that runs, which is in STATE 2 until its grids have left and its supervisors' operations have ended, and
then starts again without its carve pages; CMD 3 ends one with no enabled queue and no grid; else ERR says why; a key is installed
under a secure session. -/
def Sys2Proof.Cert.PartitionCommands : Prop :=
  (∀ (s : State) (p : Nat), s.host.up = false → exec (.partitionStart p) s = .next s ∧ exec (.partitionReset p) s = .next s ∧
    exec (.partitionStop p) s = .next s) ∧
  (∀ (s : State) (p : Nat), p < 8 → s.host.up = true →
    let r := s.part p
    let shares := ∃ q, q < 8 ∧ (s.part q).state ≠ 0 ∧
      ((s.part q).clusters &&& r.clusters ≠ 0 ∨ (s.part q).engines &&& r.engines ≠ 0 ∨ (s.part q).ways &&& r.ways ≠ 0)
    let total := s.liveParts.foldl (fun n q => n + (s.part q).hbm.toNat) r.hbm.toNat
    let err := fun (e : Byte) => (.next (s.modPart p fun r => { r with err := e }) : Res)
    (shares → exec (.partitionStart p) s = err 1) ∧ (¬ shares → 1536 < total → exec (.partitionStart p) s = err 2) ∧
    (¬ shares → total ≤ 1536 → r.key = false → exec (.partitionStart p) s = err 3) ∧
    (¬ shares → total ≤ 1536 → r.key = true → ∃ t, exec (.partitionStart p) s = .next t ∧
      t.part p = { r with err := 0, state := 1, stopped := false } ∧ khas t.mgmt.meas (0x10 + p) = true ∧ t.mem = s.mem ∧ t.grids = s.grids ∧
      (∀ c ∈ s.partCores p, kget t.warps (supKey c) = some (Warp.supervisor p c))) ∧
    (r.state ≠ 1 → exec (.partitionReset p) s = err 5) ∧
    (r.state = 1 → exec (.partitionReset p) s = .next ((s.modPart p fun r => { r with err := 0 }).resetPart p)) ∧
    let busy := (∃ e ∈ s.sched.queues, e.2.en = true ∧ e.2.part.toNat = p) ∨ ∃ g ∈ s.grids, g.2.part = p
    (busy → exec (.partitionStop p) s = err 4) ∧
    (¬ busy → r.state ≠ 0 → ∃ t, exec (.partitionStop p) s = .next t ∧ t.part p = { r with err := 0, state := 0, stopped := false } ∧
      (∀ c ∈ s.partCores p, kget t.warps (supKey c) = none) ∧ t.mem = s.mem)) ∧
  (∀ (s : State) (p : Nat), let t := s.resetPart p
    (t.part p).state = 2 ∧ (t.part p).stopped = false ∧ (∀ q, q < 256 → (s.queue q).part.toNat = p → (t.queue q).en = false ∧ (t.queue q).state = 0)) ∧
  (∀ (s : State) (p : Nat), (s.resetQuiet p = true ↔ (s.part p).state = 2 ∧ (∀ g ∈ s.grids, g.2.part ≠ p) ∧ ∀ o ∈ s.ops, o.2.ctx ≠ supCtx p) ∧
    let t := s.resetEnd p
    (t.part p).state = 1 ∧ (∀ c ∈ s.partCores p, kget t.warps (supKey c) = some (Warp.supervisor p c)) ∧ t.mem = s.mem.dropCarve p ∧
      t.grids = s.grids) ∧
  (∀ (s : State) (p : Nat) (key : BitVec 256), s.mgmt.asserted = false →
    (s.mgmt.session = true → p < 8 → ∃ t, exec (.keyInstall p key) s = .next t ∧ kget t.mgmt.keys p = some key ∧ (t.part p).key = true ∧
      t.mem = s.mem ∧ t.ctl = s.ctl) ∧
    (s.mgmt.session = true → exec (.keyInstall 8 key) s = .next { s with mgmt := { s.mgmt with keys := kset s.mgmt.keys 8 key } }) ∧
    (s.mgmt.session = true → 8 < p → exec (.keyInstall p key) s = .next (s.emit .mgmtError)) ∧
    (s.mgmt.session = false → exec (.keyInstall p key) s = .next (s.emit .mgmtError)))

/-- 10 R318, R319; 15 R393: CMD 1 and 2 stop the partitions and pre-empt their groups, on a part with flash and with no checkpoint in
progress; once their groups have left their cores, their dirty sectors are written back, and then the image is complete and STATUS is
2, or a failure makes it 4; CMD 2 and 3 let partitions go on. -/
def Sys2Proof.Cert.CheckpointsRun : Prop :=
  (∀ (s : State) (parts : Byte), s.host.up = false → exec (.ckptAndStop parts) s = .next s ∧ exec (.ckptAndContinue parts) s = .next s ∧
    exec (.ckptResume parts) s = .next s) ∧
  (∀ (s : State) (parts : Byte), s.host.up = true →
    (s.flashOk = false → let t := { s with sched := { s.sched with ckpt := { s.sched.ckpt with status := 3 } } }
      exec (.ckptAndStop parts) s = .next t ∧ exec (.ckptAndContinue parts) s = .next t ∧ exec (.ckptResume parts) s = .next t) ∧
    (s.flashOk = true → s.sched.ckpt.status = 1 → exec (.ckptAndStop parts) s = .next s ∧ exec (.ckptAndContinue parts) s = .next s ∧
      exec (.ckptResume parts) s = .next s) ∧
    (s.flashOk = true → s.sched.ckpt.status ≠ 1 →
      (∃ t, exec (.ckptResume parts) s = .next t ∧ (∀ p, p < 8 → (t.part p).stopped = false) ∧ t.sched.ckpt.status = s.sched.ckpt.status ∧
        t.groups = s.groups ∧ t.mem = s.mem) ∧
      (ksorted s.groups = true → (∀ e ∈ s.groups, e.2.phase ≠ .run ∧ e.2.phase ≠ .held ∧ e.2.phase ≠ .stopping .drain) →
        let go := fun (cont : Bool) => { s with sched := { s.sched with
          parts := kmap (fun p (r : Part) => if parts.getLsbD p then { r with stopped := true } else r) s.sched.parts,
          ckpt := { s.sched.ckpt with status := 1, parts := parts, run := parts, cont := cont } } }
        exec (.ckptAndStop parts) s = .next (go false) ∧ exec (.ckptAndContinue parts) s = .next (go true)) ∧
      (∀ gk g d, s.groups = [(gk, g)] → g.phase = .run ∨ g.phase = .stopping .drain → kget s.grids (gkGrid gk) = some d → parts.getLsbD d.part = true → d.seam = none →
        ∃ t, exec (.ckptAndStop parts) s = .next t ∧ t.groups = [(gk, { g with phase := .stopping (s.decideCkpt gk) })]))) ∧
  (∀ (s : State) (parts : Byte) (k : Nat), ksorted s.mem.secs = true → (k ∈ s.partsDirty parts ↔
    let x := s.mem.sec k
    let l := s.mem.leaseAt (k * 4096)
    x.valid = true ∧ x.dirty = true ∧ x.lost = false ∧ l.live = true ∧ parts.getLsbD l.part = true)) ∧
  (∀ (s : State) (gk : Nat), (s.canFlush gk = true → s.decideCkpt gk = .flush) ∧
    (s.canFlush gk = false → s.canSave gk = true → s.decideCkpt gk = .save) ∧
    (s.canFlush gk = false → s.canSave gk = false → s.decideCkpt gk = .drain)) ∧
  (∀ (s : State), s.sched.ckpt.status = 1 →
    (∃ t, exec (.checkpointDone false) s = .next t ∧ t.sched.ckpt.status = 4 ∧ t.sched.ckpt.image = s.sched.ckpt.image ∧ t.mem = s.mem ∧
      (∀ p r, kget s.sched.parts p = some r → s.sched.ckpt.run.getLsbD p = true → (t.part p).stopped = false)) ∧
    ((∀ e ∈ s.groups, s.inParts s.sched.ckpt.run e.1 = true → e.2.phase.resident = false) →
      (∀ p ∈ s.sched.packets, s.sched.ckpt.run.getLsbD (s.queue p.q).part.toNat = false) →
      (s.partsDirty s.sched.ckpt.run ≠ [] → exec (.checkpointDone true) s =
        .next ((s.partsDirty s.sched.ckpt.run).foldl (fun s k => s.sendBack k) s)) ∧
      (s.partsDirty s.sched.ckpt.run = [] → ∃ t, exec (.checkpointDone true) s = .next t ∧ t.sched.ckpt.status = 2 ∧
        t.groups = s.groups ∧ t.grids = s.grids ∧ t.mem = s.mem ∧
        (∃ i, t.sched.ckpt.image = some i ∧ i.parts = s.sched.ckpt.run ∧ i.counts = s.sched.counts ∧ i.lwins = s.land.wins ∧
          (∀ id g, (id, g) ∈ i.grids ↔ (id, g) ∈ s.grids ∧ s.sched.ckpt.run.getLsbD g.part = true) ∧
          (∀ gk g, (gk, g) ∈ i.groups ↔ (gk, g) ∈ s.groups ∧ s.inParts s.sched.ckpt.run gk = true)) ∧
        (s.sched.ckpt.cont = false → t.sched.parts = s.sched.parts) ∧
        (s.sched.ckpt.cont = true → ∀ p r, kget s.sched.parts p = some r → s.sched.ckpt.run.getLsbD p = true → (t.part p).stopped = false))) ∧
    (∀ e ∈ s.groups, s.inParts s.sched.ckpt.run e.1 = true → e.2.phase.resident = true → exec (.checkpointDone true) s = .next s))

/-- 10 R311, 10 R312, 10 R313, 10 R316, 10 R318, 10 R319, 15 R393: saves complete, and checkpoints stop, write and
resume: the parts above. That CMD 3 lets every stopped partition go on is log 44, and that packets in progress complete before the
image does is log 63. -/
def Obligations.SavesAndCheckpoints : Prop := SavesComplete ∧ CheckpointsRun

/-- 12 R354 to R359, R361; 17 R434: when package reset is released the ROM goes on to CFG with the newest image that verifies, or
waits in FWLOAD for one, or in MEM when no stack trains; CFGDONE.GO goes on to LEASE, where the mending cores start, or waits for a
pool port; with the reserve lease held, stage RUN begins, or first stage RESUME, which restores the partitions of an image in turn,
each once the saved groups of the ones before it that can be placed are back; chunks of an image go to FWLOAD or to the slot that was
not booted; a reset or the loss of power ends everything but flash, fuses and what lies outside. Fuses, training results and images
are facts of one part (log 25), and a chunk says which image the bytes make (log 96). -/
def Obligations.BootStages : Prop :=
  (∀ bs : List Byte, (bs.length ≠ 64 ∨ leNat (bs.take 4) ≠ 0x4B435231 ∨ bs.drop 32 ≠ leBytes 32 (Config.sm3 (bs.take 32)).toNat → cardOf bs = none) ∧
    ∀ c, cardOf bs = some c → bs.length = 64 ∧ c.ctype = bs.getD 5 0 ∧ c.holdup = (bs.getD 6 0).getLsbD 0 ∧ c.slots = (bs.getD 6 0).getLsbD 1 ∧
      c.pmod = (bs.getD 6 0).getLsbD 2 ∧ c.ckptGiB = leNat ((bs.drop 8).take 4) ∧ c.slotMiB = leNat ((bs.drop 12).take 4)) ∧
  (∀ (s : State) (f : BootFacts), s.mgmt.asserted = true → s.mgmt.slotA = none → s.mgmt.slotB = none → f.noStacks = 0 → s.mgmt.fencedStacks = 0 →
    let ok := fun (i : FwImg) => ∀ x ∈ [i.mend, i.link], x.sigOk = true ∧ x.digest = Config.sm3 x.code ∧ f.rollback ≤ x.version
    let slots := ∃ c, cardOf f.record = some c ∧ c.slots = true
    let rest := fun (t : State) => t.mgmt.asserted = false ∧ t.mem = s.mem ∧ t.warps = s.warps ∧ t.mgmt.carrier = some f ∧
      t.mgmt.card = cardOf f.record ∧ t.mgmt.fuseClusters = f.noClusters ∧ t.mgmt.fuseStacks = f.noStacks ∧ t.mgmt.fusePlanes = f.noPlanes ∧
      t.mgmt.rollback = f.rollback ∧ kget t.mgmt.meas 1 = some (Config.sm3 Config.bootRom) ∧ khas t.mgmt.meas 2 = true
    let boots := fun (i : FwImg) (slotB : Bool) => ∃ t, exec (.packageResetRelease f) s = .next t ∧ rest t ∧ t.mgmt.running = some i ∧
      t.mgmt.bootedB = slotB ∧ kget t.mgmt.meas 3 = some (Config.sm3 i.mend.code) ∧ kget t.mgmt.meas 4 = some (Config.sm3 i.link.code) ∧
      (f.trained ≠ 0 → t.mgmt.stage = 5 ∧ t.mgmt.waiting = false ∧ t.mgmt.fencedStacks = ~~~f.trained ∧
        (f.trained ≠ BitVec.allOnes 16 → t.mgmt.fail = 2)) ∧
      (f.trained = 0 → t.mgmt.stage = 4 ∧ t.mgmt.waiting = true ∧ t.mgmt.fail = 3)
    (∀ i, slots → f.slotA = some i → f.slotB = none → ok i → boots i false) ∧
    (∀ i j, slots → f.slotA = some i → f.slotB = some j → ok i → ok j →
      boots (if i.mend.version < j.mend.version then j else i) (decide (i.mend.version < j.mend.version))) ∧
    (∀ i, ¬ slots → f.received = some i → ok i → boots i false) ∧
    (¬ slots → (∀ i, f.received = some i → ¬ ok i) →
      ∃ t, exec (.packageResetRelease f) s = .next t ∧ rest t ∧ t.mgmt.stage = 3 ∧ t.mgmt.waiting = true ∧ t.mgmt.fail = 1)) ∧
  (∀ (s : State) (f : BootFacts), s.mgmt.asserted = false → exec (.packageResetRelease f) s = .next s) ∧
  (∀ (s : State) (resume : Bool) (f : LinkFacts) (i : FwImg), Session s → s.mgmt.stage = 5 → s.mgmt.running = some i →
    ksorted s.mem.pports = true → (∀ e ∈ s.mem.pports, e.1 < 8) →
    ∃ t, exec (.cfgdoneGo resume f) s = .next t ∧ t.mgmt.resume = resume ∧ t.warps = s.warps ∧
      (∀ n, n < 8 → kget t.mem.pports n = some { up := f.pool.getLsbD n }) ∧
      (f.pool ≠ 0 → t.mgmt.stage = 7 ∧ t.mgmt.waiting = false ∧ ∀ m, m < 4 → ∃ x, kget t.mends m = some x ∧ x.halted = false ∧
        x.pc = i.entry.toNat ∧ x.code = mwrite [] 0 i.mend.code ∧ x.s = [] ∧ x.cycles = 0) ∧
      (f.pool = 0 → t.mgmt.stage = 6 ∧ t.mgmt.waiting = true ∧ t.mgmt.fail = 4 ∧ t.mends = s.mends)) ∧
  (∀ (s : State) (f : LinkFacts), ksorted s.mem.pports = true → (∀ e ∈ s.mem.pports, e.1 < 8) →
    (s.mgmt.stage = 6 → s.mgmt.waiting = true → f.pool ≠ 0 → ∃ t, exec (.bootRetry f) s = .next t ∧ t.mgmt.stage = 7 ∧ t.mgmt.waiting = false) ∧
    (s.mgmt.stage = 6 → s.mgmt.waiting = true → f.pool = 0 → ∃ t, exec (.bootRetry f) s = .next t ∧ t.mgmt.stage = 6 ∧ t.mgmt.fail = 4) ∧
    (s.mgmt.stage = 7 → s.reserveHeld = false → exec (.bootRetry f) s = .next { s with mgmt := { s.mgmt with fail := 6 } }) ∧
    (s.mgmt.stage = 7 → s.reserveHeld = true → s.mgmt.resume = false → ∃ t, exec (.bootRetry f) s = .next t ∧ t.mgmt.stage = 9 ∧
      t.mgmt.waiting = false ∧ t.host.up = true ∧ t.mem = s.mem ∧ t.mends = s.mends) ∧
    (∀ i, s.mgmt.stage = 7 → s.reserveHeld = true → s.toResume = some i → ∃ t, exec (.bootRetry f) s = .next t ∧ t.mgmt.stage = 8 ∧
      t.host.up = s.host.up ∧ t.mem = s.mem ∧ ∀ p, p ∈ t.mgmt.resumeQ ↔ p < 8 ∧ i.parts.getLsbD p = true)) ∧
  (∀ (s : State), s.mgmt.stage = 8 → let more := ∃ p, p < 8 ∧ s.resumesNow p = true
    (more → s.bootAdvance = s) ∧
    (∀ p r i, ¬ more → s.mgmt.resumeQ = p :: r → s.toResume = some i →
      s.bootAdvance = { s with mgmt := { s.mgmt with resumeQ := r } }.resumePart i p) ∧
    (¬ more → s.mgmt.resumeQ = [] → ∃ t, s.bootAdvance = t ∧ t.mgmt.stage = 9 ∧ t.host.up = true ∧ t.mgmt.resumed = s.anyRestored ∧
      t.sched.ckpt.status = 0 ∧ t.mem = s.mem ∧ t.groups = s.groups)) ∧
  (∀ (s : State) (b : Bool) (c : FwChunk), Session s → 1024 < c.data.length → exec (.fwimage b c) s = .next (s.emit .mgmtError)) ∧
  (∀ (s : State) (b : Bool) (c : FwChunk), Session s → c.data.length ≤ 1024 →
    let put := fun (n : Nat) => ({ s with mgmt := { s.mgmt with
      flash := kset s.mgmt.flash n (mwrite (kgetD s.mgmt.flash n []) c.off c.data) } } : State)
    (s.mgmt.stage = 3 → s.mgmt.waiting = true → (c.image = none → exec (.fwimage b c) s = .next (put 2)) ∧
      ∀ i, c.image = some i → (s.mgmt.accepts i = true → exec (.fwimage b c) s = .next ((put 2).bootLoad i b)) ∧
        (s.mgmt.accepts i = false → exec (.fwimage b c) s = .next ((put 2).bootFail 1))) ∧
    (∀ f, s.mgmt.stage = 9 → s.mgmt.card = some f → f.slots = true → c.off + c.data.length ≤ f.slotMiB * 2 ^ 20 → b ≠ s.mgmt.bootedB →
      ∃ t, exec (.fwimage b c) s = .next t ∧ t.mem = s.mem ∧ t.mgmt.flash = (put b.toNat).mgmt.flash ∧
      (if b = true then t.mgmt.slotB = c.image ∧ t.mgmt.slotA = s.mgmt.slotA else t.mgmt.slotA = c.image ∧ t.mgmt.slotB = s.mgmt.slotB)) ∧
    (s.mgmt.stage = 9 → b = s.mgmt.bootedB → exec (.fwimage b c) s = .next s)) ∧
  (∀ (s : State), let gone := fun (t : State) => t.mgmt.asserted = true ∧ t.mgmt.stage = 1 ∧ t.warps = [] ∧ t.groups = [] ∧ t.grids = [] ∧
      t.ops = [] ∧ t.mem.bytes = [] ∧ t.mem.secs = [] ∧ t.mem.pool = s.mem.pool ∧ t.mem.seals = s.mem.seals ∧ t.mgmt.slotA = s.mgmt.slotA ∧ t.mgmt.slotB = s.mgmt.slotB ∧
      t.mgmt.session = false ∧ t.mgmt.keys = [] ∧ t.host.up = false
    (gone s.powerCycle ∧ s.powerCycle.sched.ckpt.image = s.sched.ckpt.image) ∧
    (Session s → s.mgmt.carrier = none → exec .devreset s = .next s.powerCycle) ∧
    (∀ f, Session s → s.mgmt.carrier = some f → exec .devreset s = exec (.packageResetRelease f) s.powerCycle) ∧
    (s.sched.ckpt.status ≠ 1 → ∃ t, exec .inputPowerLoss s = .next t ∧ gone t ∧ t.sched.ckpt.image = s.sched.ckpt.image) ∧
    (s.sched.ckpt.status = 1 → s.flashOk = true → s.ckptQuiet s.sched.ckpt.run = true → s.partsDirty s.sched.ckpt.run = [] →
      ∃ t i, exec .inputPowerLoss s = .next t ∧
      t.mgmt.asserted = true ∧ t.warps = [] ∧ t.sched.ckpt.image = some i ∧ i.parts = s.sched.ckpt.run) ∧
    (s.partsDirty s.sched.ckpt.run ≠ [] → ∃ t, exec .inputPowerLoss s = .next t ∧ gone t ∧ t.sched.ckpt.image = s.sched.ckpt.image))

/-- 00 R6; 11 R349, R350; 12 R360 to R362; 15 R381; 17 R427, R430, R432: what the management commands, the monitor sample and a
store of the host to a register do. -/
def Sys2Proof.Cert.ManagementCommands : Prop :=
  (∀ (s : State) (i : Nat), s.mgmt.asserted = false → 2 ≤ s.mgmt.stage.toNat →
    (∀ v, s.mgmtReg i = some v → exec (.rdreg i) s = .next (s.emit (.mgmt (leBytes 4 v)))) ∧
    (s.mgmtReg i = none → exec (.rdreg i) s = .next (s.emit .mgmtError)) ∧
    s.mgmtReg 0 = some (s.mgmt.resumed.toNat + 2 ^ 16 * s.mgmt.fail.toNat + 2 ^ 24 * s.mgmt.stage.toNat) ∧
    s.mgmtReg 0x10 = some s.mgmt.peernum.toNat ∧ s.mgmtReg 0x150 = some s.mgmt.tthr.toNat ∧
    s.mgmtReg 0x300 = some s.host.loss.toNat ∧ s.mgmtReg 0x312 = some s.land.err.toNat ∧
    (∀ d, kget s.mgmt.meas i = some d →
      exec (.getMeasurements { index := i, nonce := none }) s = .next (s.emit (.mgmt (leBytes 32 d.toNat))) ∧
      ∀ n, exec (.getMeasurements { index := i, nonce := some n }) s =
        .next (s.emit (.mgmt (leBytes 32 d.toNat ++ Config.identitySign (leBytes 32 d.toNat ++ n))))) ∧
    (kget s.mgmt.meas i = none → ∀ n, exec (.getMeasurements { index := i, nonce := n }) s = .next (s.emit .mgmtError)) ∧
    (∀ bs, 1 ≤ i → i ≤ 7 → exec (.setCertificate i bs) s = .next { s with mgmt := { s.mgmt with certs := kset s.mgmt.certs i bs } }) ∧
    (∀ bs, i = 0 ∨ 7 < i → exec (.setCertificate i bs) s = .next (s.emit .mgmtError)) ∧
    exec (.keyExchange true) s = .next { s with mgmt := { s.mgmt with session := true } } ∧
    exec (.keyExchange false) s = .next (s.emit .mgmtError)) ∧
  (∀ (s : State) (v : Word), Session s →
    exec (.wrreg 0x150 v) s = .next { s with mgmt := { s.mgmt with tthr := v.setWidth 16 } } ∧
    exec (.wrreg 0x151 v) s = .next { s with mgmt := { s.mgmt with tcrit := v.setWidth 16 } } ∧
    exec (.wrreg 0x152 v) s = .next { s with mgmt := { s.mgmt with hthr := v.setWidth 16 } } ∧
    exec (.wrreg 0x153 v) s = .next { s with mgmt := { s.mgmt with hcrit := v.setWidth 16 } } ∧
    (s.mgmt.stage = 5 → exec (.wrreg 0x10 v) s = .next { s with mgmt := { s.mgmt with peernum := v.setWidth 14 } } ∧
      exec (.wrreg 0x11 v) s = .next { s with mgmt := { s.mgmt with hostacap := v.setWidth 6 } }) ∧
    (s.mgmt.stage = 5 → v.getLsbD 0 = true → exec (.wrreg 0x14 v) s = .next { s with mgmt := { s.mgmt with
      resume := v.getLsbD 1, waiting := true, untrained := true, stage := 6 } }) ∧
    (s.mgmt.stage ≠ 5 → exec (.wrreg 0x10 v) s = .next s ∧ exec (.wrreg 0x11 v) s = .next s ∧ exec (.wrreg 0x12 v) s = .next s) ∧
    (∃ t, exec (.wrreg 0x310 v) s = .next t ∧ (∀ w, w < 32 → t.land.flt.getLsbD w = (s.land.flt.getLsbD w && !v.getLsbD w)) ∧
      (∀ w, 32 ≤ w → t.land.flt.getLsbD w = s.land.flt.getLsbD w) ∧ t.land.wins = s.land.wins ∧ t.mem = s.mem)) ∧
  (∀ (s : State) (i : Nat) (v : Word), s.mgmt.asserted = false → s.mgmt.session = false → exec (.wrreg i v) s = .next (s.emit .mgmtError)) ∧
  (∀ (s : State) (off : Word) (u : FwUpdate), Session s → s.mgmt.mfBusy = some u → exec (.mrestart u.core off) s = .next s) ∧
  (∀ (s : State) (m : Nat) (x : Mend) (off : Word), Session s → kget s.mends m = some x → s.mgmt.updates m = false →
    (x.halted = true → off = BitVec.allOnes 32 → exec (.mrestart m off) s = .next (s.setMend m { x with halted := false, trapped := false })) ∧
    (x.halted = true → off ≠ BitVec.allOnes 32 → exec (.mrestart m off) s =
      .next (s.setMend m { x with halted := false, trapped := false, clause := none, resume := none, pc := off.toNat })) ∧
    (x.halted = false → exec (.mrestart m off) s = .next (s.setMend m x))) ∧
  (∀ (s : State) (m : Nat) (x : Mend), Session s → m < 4 → kget s.mends m = some x →
    let slot := if s.mgmt.bootedB then s.mgmt.slotA else s.mgmt.slotB
    let err := fun (e : Byte) => (.next { s with mgmt := { s.mgmt with mfErr := e } } : Host.Outcome State Fault Refusal)
    let near := ∃ e ∈ s.mem.leases, e.2.live = true ∧ e.2.owner = m ∧ e.2.expiry < x.cycles + 1200000000
    (s.mgmt.mfBusy.isSome = true → exec (.mfwupd m) s = .next s) ∧
    (s.mgmt.mfBusy = none → s.mgmt.hasSlots = false ∨ s.mgmt.accepted slot = none → exec (.mfwupd m) s = err 1) ∧
    (∀ i, s.mgmt.mfBusy = none → s.mgmt.hasSlots = true → s.mgmt.accepted slot = some i →
      let old := ∃ r, s.mgmt.running = some r ∧ i.mend.version < r.mend.version
      (¬ old → ¬ near → ∃ t, exec (.mfwupd m) s = .next t ∧ t.mgmt = { s.mgmt with
          mfErr := 0, mfBusy := some { core := m, img := i, stopped := false } } ∧ kget t.mends m = some { x with halted := true } ∧
        (∀ k, k ≠ m → kget t.mends k = kget s.mends k) ∧ t.mem = s.mem) ∧
      (old → exec (.mfwupd m) s = err 2) ∧ (¬ old → near → exec (.mfwupd m) s = err 3))) ∧
  (∀ (s : State) (u : FwUpdate) (x : Mend), s.mgmt.mfBusy = some u → kget s.mends u.core = some x →
    (u.stopped = false → s.updateAdvance = { s with mgmt := { s.mgmt with mfBusy := some { u with stopped := true } } }) ∧
    (u.stopped = true → let t := s.updateAdvance
      t.mgmt.mfBusy = none ∧ t.mgmt.running = some u.img ∧ kget t.mgmt.meas 3 = some (Config.sm3 u.img.mend.code) ∧
      kget t.mends u.core = some { x with code := mwrite [] 0 u.img.mend.code, pc := u.img.entry.toNat, clause := none, resume := none,
                                          halted := false, trapped := false } ∧
      (∀ k, k ≠ u.core → kget t.mends k = kget s.mends k) ∧ t.mem = s.mem)) ∧
  (∀ (s : State) (x : Sample), s.mgmt.asserted = false → s.mgmt.hotCl = [] → s.mgmt.hotSt = [] → ∃ t, exec (.monitorSample x) s = .next t ∧
    (∀ d v, d < 4 → x.tdie[d]? = some v → kget t.mgmt.tdie d = some (BitVec.ofNat 32 (2 ^ 31 + v.toNat))) ∧
    (∀ k v, k < 16 → x.thbm[k]? = some v → kget t.mgmt.thbm k = some (BitVec.ofNat 32 (2 ^ 31 + v.toNat))) ∧
    t.mem = s.mem ∧ t.groups = s.groups ∧ t.mgmt.clop = s.mgmt.clop ∧ t.mgmt.fenceBusy = s.mgmt.fenceBusy) ∧
  (∀ (s : State) (off : Nat) (val : DWord), s.host.up = true → off % 8 = 0 → off < 2 ^ 30 →
    exec (.registerWrite off val) s = .next (s.windowWrite off val)) ∧
  (∀ (s : State) (k : Nat) (val : DWord), k < 4096 → ksorted s.sched.counts = true → let t := s.windowWrite (0x4010000 + 8 * k) val
    t.count k = val ∧ (∀ j, j ≠ k → t.count j = s.count j) ∧ t.sched.queues = s.sched.queues ∧ t.mem = s.mem)

/-- 11 R346, 11 R347, 11 R349, 11 R350, 12 R360, 12 R361, 12 R362, 15 R381, 17 R427, 17 R428, 17 R430, 17 R432: commands to partitions and of the
management controller: the parts above. That a partition which runs is not started again is log 59, what an index that names no
register answers is log 60, and which leases an update looks at is log 62. -/
def Obligations.ManagementAndPartitionCommands : Prop := PartitionCommands ∧ ManagementCommands

/-- 16 R408 to R413; 17 R431, R433: an uncorrectable error of a clean copy leaves no trace; that of a dirty sector makes it lost, with
an entry of its KIND, until the entry is acknowledged; errors of a stack are counted; a fence of a stack that is in service starts,
drops the clean sectors of frames that are not pinned and is recorded; a fence of a cluster that holds no group starts, ends once it
holds none, and is taken back; a stack returns. Which stack holds a frame, and which slice a carve sector, is free (log 34); that a
lost sector is filled after its ACK at the next use is log 64, and that a fence behind another waits in a list is log 69. -/
def Obligations.MemoryErrorsAndFences : Prop :=
  (∀ (s : State) (core sector : Nat), ∃ t, exec (.uncorrectableError (.l1 core sector)) s = .next t ∧ t.mem = s.mem ∧ t.warps = s.warps ∧
    t.mends = s.mends ∧ (ksorted (s.core core).l1 = true → kget (t.core core).l1 sector = none)) ∧
  (∀ (s : State) (slice k : Nat), (s.mem.sec k).dirty = false ∨ (s.mem.sec k).valid = false →
    exec (.uncorrectableError (.llc slice k true)) s = .next s ∧ exec (.uncorrectableError (.llc slice k false)) s = .next s ∧
    exec (.uncorrectableError (.hbm k)) s = .next s) ∧
  (∀ (s : State) (slice k : Nat), slice < 256 → s.mem.sec k = { valid := true, dirty := true, lost := false } → ∃ t,
    exec (.uncorrectableError (.llc slice k true)) s = .next t ∧ t.mem.sec k = { valid := true, dirty := true, lost := true } ∧
    (∀ j, j / 16 ≠ k / 16 → t.mem.sec j = s.mem.sec j) ∧ t.mends = (s.memFault {
      kind := 5, unit := slice, node := 0, count := (s.waitersOf k).length, carve := false, addr := k * 4096, tag := 0xFFFF }).mends) ∧
  (∀ (s : State) (k : Nat), k ∉ s.mem.lostCarve → let t := { s with mem := { s.mem with lostCarve := s.mem.lostCarve ++ [k] } }
    exec (.uncorrectableError (.carve k)) s = .next (t.memFault {
      kind := 5, unit := (Config.carveSlice k).toNat, node := 0, count := t.carveCount k, carve := true, addr := k * 4096, tag := 0xFFFF })) ∧
  (∀ (s : State) (k : Nat) (o : Op) (off : Option Nat), kget s.ops k = some o → o.isAcc = false →
    exec (.uncorrectableError (.async k off)) s = .next (s.failOp k o 0x17 0 (off.getD 0) o.progress 0)) ∧
  (∀ (s : State) (m slot k : Nat) (x : Mend), kget s.mends m = some x → slot < 256 → x.sram.wf = true → s.ops = [] → s.fab.inHeld = [] →
    ksorted s.mem.secs = true → let e := leNat (x.slotBytes faultRing slot)
    bitAt e 255 = true → bitsOf e 244 4 = 4 ∨ bitsOf e 244 4 = 5 → bitAt e 109 = false → k = bitsOf e 64 45 / 4096 → (s.mem.sec k).lost = true →
    ∃ t, exec (.lostSectorAck m slot) s = .next t ∧ (t.mem.sec k).lost = false ∧ (t.mem.sec k).valid = false ∧
      (∀ j, j ≠ k → t.mem.sec j = s.mem.sec j) ∧ t.mem.pool = s.mem.pool ∧ ∃ x', kget t.mends m = some x' ∧
        mget x'.sram (faultRing + 32 * slot + 31) = mget x.sram (faultRing + 32 * slot + 31) ||| 0x40) ∧
  (∀ (s : State) (k : Nat), k < 16 → ksorted s.mem.errs = true → ∃ t, exec (.correctedError k) s = .next t ∧
    sget 0 t.mem.errs k = sget 0 s.mem.errs k + 1 ∧ (∀ j, j ≠ k → sget 0 t.mem.errs j = sget 0 s.mem.errs j) ∧ t.mem.bytes = s.mem.bytes ∧
    ((sget 0 s.mem.errs k + 1) % 65536 ≠ 0 → t.mends = s.mends) ∧
    ((sget 0 s.mem.errs k + 1) % 65536 = 0 → t.mends = (s.memFault {
      kind := 6, unit := k, node := 0, count := (sget 0 s.mem.errs k + 1) % 2 ^ 32, carve := false, addr := 0, tag := 0xFFFF }).mends)) ∧
  (∀ (s : State) (k j : Nat), k < 16 → j < 16 → j ≠ k → s.mgmt.stackOn k = true → s.mgmt.stackOn j = true → s.mgmt.fenceBusy = none →
    let t := { s with mgmt := { s.mgmt with fenceBusy := some k } }
    (Session s → exec (.hbmFence k) s = .next t) ∧ exec (.stackFailure k) s = .next t) ∧
  (∀ (s : State) (k b : Nat), k < 16 → s.mgmt.fenceBusy = some b → (Session s → exec (.hbmFence k) s = .next s) ∧
    (b ≠ k → k ∉ s.mgmt.fenceWait → exec (.stackFailure k) s =
      .next { s with mgmt := { s.mgmt with fenceWait := s.mgmt.fenceWait ++ [k] } })) ∧
  (∀ (s : State) (k : Nat), k < 16 → s.mgmt.fenceBusy = some k → s.mgmt.fenceWait = [] → ksorted s.mem.secs = true → ∃ t,
    exec .hbmFenceComplete s = .next t ∧ t.mgmt.fenceBusy = none ∧ t.mgmt.fencedStacks = s.mgmt.fencedStacks ||| BitVec.ofNat 16 (2 ^ k) ∧
    t.mends = (s.memFault { kind := 7, unit := k, node := 0, count := 0, carve := false, addr := 0, tag := 0xFFFF }).mends ∧
    (∀ a, s.stackOf (a / 16) ≠ k → t.mem.sec a = s.mem.sec a) ∧ t.mem.pool = s.mem.pool ∧
    (∀ a, (s.mem.sec a).valid = true → (s.mem.sec a).dirty = true → t.mem.sec a = s.mem.sec a) ∧
    (∀ a, s.stackOf (a / 16) = k → (s.mem.sec a).dirty = false → (s.mem.sec a).lost = false → s.mem.pinned (a / 16) = false →
      (∀ h ∈ s.mem.hostLines, h / 2 / 32 ≠ a) → (t.mem.sec a).valid = false)) ∧
  (∀ (s : State) (k : Nat), k < 16 → Session s →
    (s.mgmt.fencedStacks.getLsbD k = true → s.mgmt.fuseStacks.getLsbD k = false → exec (.hbmret k true) s =
      .next { s with mgmt := { s.mgmt with fencedStacks := s.mgmt.fencedStacks &&& ~~~(BitVec.ofNat 16 (2 ^ k)) } }) ∧
    exec (.hbmret k false) s = .next s) ∧
  (∀ (s : State) (c : Nat), c < 64 → Session s → s.mgmt.clop = none →
    ((s.cluster c).fenced = false → s.mgmt.fuseClusters.getLsbD c = false →
      (∀ e ∈ s.groups, ∀ x ∈ e.2.cores, x / 4 ≠ c) → exec (.clctlFence c) s =
        .next { s with mgmt := { s.mgmt with clop := some { cluster := c, emerg := false } } }) ∧
    ((s.cluster c).fenced = true → exec (.clctlReturn c) s = .next (s.modCluster c fun x => { x with fenced := false })) ∧
    ((s.cluster c).fenced = true → exec (.clctlFence c) s = .next s)) ∧
  (∀ (s : State) (o : ClOp), s.mgmt.clop = some o →
    (s.mgmt.clWait = [] → (∀ e ∈ s.groups, e.2.phase.holdsRoom = true → ∀ x ∈ e.2.cores, x / 4 ≠ o.cluster) → ∃ t, exec .clusterFenceComplete s = .next t ∧
      t.mgmt.clop = none ∧ (t.cluster o.cluster).fenced = true ∧ t.groups = s.groups ∧ t.mem = s.mem) ∧
    ((∃ e ∈ s.groups, gkGrid e.1 < 2 ^ 32 ∧ e.2.phase.holdsRoom = true ∧ ∃ x ∈ e.2.cores, x / 4 = o.cluster) →
      exec .clusterFenceComplete s = .next s))

/-! ### Words and steps -/

namespace Sys2Proof.Cert

/-- The two words of a list of words, the second 0 when there is one. -/
def firstWord (ws : List Nat) : Nat := ws.getD 0 0
def secondWord (ws : List Nat) : Nat := ws.getD 1 0

/-- An FS word by its fields, from bit 31 down (04 Table 4-8). -/
def fs (op : BitVec 7) (d a : BitVec 6) (i : BitVec 1) (fn : BitVec 3) (k : BitVec 9) : Nat := (op ++ d ++ a ++ i ++ fn ++ k).toNat

/-- The words that a line holds at a code offset. -/
def At (line : Nat → Nat) (off w x : Nat) : Prop :=
  line (wordIx off) = w ∧ (if instrLen w = 2 then line (wordIx off + 1) else 0) = x

/-- Warp wk is next to issue, in the midst of clause c, and its code gives the words w and x of one instruction there;
t is the state once it has become the one that issues. -/
def NextOfWarp (s : State) (wk : Nat) (v : Warp) (c : ClausePos) (w x : Nat) (t : State) : Prop :=
  ∃ r line, s.ctl.issue = .warp wk :: r ∧ kget s.warps wk = some v ∧ v.inClause = some c ∧ c.stop ≠ 0 ∧ s.issuable v = true ∧
    ((s.popIssue r).begin (.warp wk) { pc := c.next, word := 0, ext := 0 }).fetchLine v c.next = .ok line ∧ At line c.next w x ∧
    t = ((s.popIssue r).setWarp wk v).begin (.warp wk) { pc := c.next, word := w, ext := x, hdr := c.hdr }

/-- The same of mending core m. -/
def NextOfMend (s : State) (m : Nat) (y : Mend) (c : ClausePos) (w x : Nat) (t : State) : Prop :=
  ∃ r, s.ctl.issue = .mend m :: r ∧ kget s.mends m = some y ∧ y.clause = some c ∧ y.halted = false ∧
    s.mendWaits m = false ∧ At (y.line c.next) c.next w x ∧ t = (s.popIssue r).begin (.mend m) { pc := c.next, word := w, ext := x, hdr := c.hdr }

/-- The instruction's words stand in its clause, and its class is the clause's. -/
def InClause (c : ClausePos) (w : Nat) : Prop := w / 2 ^ 29 % 8 = c.cls ∧ c.next + 4 * instrLen w ≤ c.stop

/-- A word of class 1 that no instruction has traps with ILLEGAL_ENCODING where it would issue, in a warp and on a mending
core. -/
def EncodingTraps (w : Nat) : Prop :=
  (∀ s wk v c x t, NextOfWarp s wk v c w x t → InClause c w → c.cls = 1 → step s = afterStep (trapRes t cEncoding c.act)) ∧
  (∀ s m y c x t, NextOfMend s m y c w x t → InClause c w → c.cls = 1 → step s = afterStep (trapRes t cEncoding c.act))

/-- The words of class 1 that are refused, and those that have an instruction. -/
def Refused (w : Nat) : Prop := (∀ x, decodeInstr w x = none) ∧ EncodingTraps w
def Reads (w x : Nat) (i : Instr) : Prop := decodeInstr w x = some i

/-- The form of the state that no access of it changes: the keys of each map rise strictly, each memory lists its bytes that are not
zero by rising address, and no count of a scoreboard is above 63. -/
def Canonical (s : State) : Prop :=
  (ksorted s.warps ∧ ksorted s.groups ∧ ksorted s.grids ∧ ksorted s.cores ∧ ksorted s.mends ∧ ksorted s.ops ∧ ksorted s.seams ∧
    ksorted s.clus ∧ ksorted s.sched.queues ∧ ksorted s.sched.parts ∧ ksorted s.sched.counts ∧ ksorted s.mem.secs ∧ ksorted s.mem.leases ∧
    ksorted s.mem.errs ∧ ksorted s.mem.pports ∧ (∀ i, s.sched.ckpt.image = some i → ksorted i.counts) ∧ ∀ e ∈ s.cores, ksorted e.2.l1) ∧
  (s.mem.bytes.wf ∧ s.mem.pool.wf ∧ s.mem.carve.wf ∧ s.sched.win.wf ∧ ∀ e ∈ s.mends, e.2.sram.wf) ∧
  (∀ e ∈ s.warps, ∀ k, e.2.slot k ≤ 63)

/-- Only agents that may still issue stand in the window in progress, and between steps none is issuing. -/
def WindowInv (s : State) : Prop := s.ctl.cur = none ∧ ∀ a ∈ s.ctl.issue, s.mayIssue a = true

end Sys2Proof.Cert

open Host Sys2Proof Sys2Proof.Machine Sys2Proof.Cert

/-- 04 R103 to R110, R435: the decoder reads back from the words of every well-formed instruction that instruction, with
every operand at every value that the encoding admits; each word is of 32 bits, and their number is the instruction's length. -/
def Obligations.DecodeInvertsEncode : Prop :=
  ∀ i : Instr, i.wf = true → encode i ≠ [] →
    decodeInstr (firstWord (encode i)) (secondWord (encode i)) = some i ∧
    (∀ w ∈ encode i, w < 2 ^ 32) ∧ (encode i).length = instrLen (firstWord (encode i))

/-- 04 R116: a word, or a pair of words, has at most one instruction: what it decodes to is well-formed and encodes to just
these words, so no set bit is ignored. -/
def Obligations.EncodeInvertsDecode : Prop :=
  ∀ (w x : Nat) (i : Instr), w < 2 ^ 32 → x < 2 ^ 32 → decodeInstr w x = some i →
    i.wf = true ∧ encode i = if instrLen w = 2 then [w, x] else [w]

/-- 04 Table 4-14 and the examples of 06, 07, 09 and 14; 07 R204, R231, Table 7-8; 09 R285: the words that the manual writes out decode
to the instructions it says they are; two words beside them have none. -/
def Obligations.WordsOfTheManual : Prop :=
  decodeInstr 0x40102024 0 = some (.vadd 4 (.vec 4 false) (.scl 2)) ∧
  decodeInstr 0x44142072 0 = some (.vmul 5 (.vec 4 true) (.vec 7 false)) ∧
  decodeInstr 0x6418308C 0x14020001 = some (.vfma false 6 (.vec 6 false) (.vec 8 false) (.vec 10) 2 1) ∧
  decodeInstr 0x025FFFFA 0 = some (.brc 1 false (-6)) ∧
  decodeInstr 0x36200000 0x20000002 = some (.simm 4 0x20000002) ∧
  decodeInstr 0x16002050 0 = some (.ebind 0 4 5) ∧ decodeInstr 0x12080000 0 = some (.bara 2) ∧
  decodeInstr 0x14000001 0 = some (.wany 1) ∧ decodeInstr 0x0C1C0000 0 = some (.exit 7 false) ∧
  decodeInstr 0x3C0C2800 0 = some (.srdl 3 5 false) ∧
  decodeInstr 0x8018106C 0x08029600 = some (.ld 6 0 ⟨false, 2, false, true, 6, false, 2, false⟩ 4 2 1) ∧
  decodeInstr 0x6C30000C 0x0010014F = some (.vfcvtPack 12 0 false 15 0 0 false) ∧
  decodeInstr 0x8E380000 0 = some (.fence 3 2) ∧ decodeInstr 0x8E540000 0 = some (.fence 5 1) ∧
  decodeInstr 0xA00050CC 0x20000000 = some (.cpx 10 12 16) ∧ decodeInstr 0xAA000000 0 = some (.cwait 0) ∧
  decodeInstr 0xC00050CC 0x0001907F = some (.tld 0 10 12 false 1 127 false false (some 1)) ∧
  decodeInstr 0xCA08001C 2 = some (.mma 2 0 1 0 false true none) ∧
  decodeInstr 0xC828122C 0x0010A000 = some (.tmovTv 10 2 34 0 false 2) ∧
  decodeInstr 0xC4000000 0 = some (.tzero 0 0) ∧ decodeInstr 0xE0000000 0 = some .nop ∧ decodeInstr 0xF4000000 0 = some .tfence ∧
  decodeInstr 0xE0000001 0 = none ∧ decodeInstr 0xFE000000 0 = none ∧ instrLen 0x6418308C = 2 ∧ instrLen 0x40102024 = 1

/-- 06 R162: SCMP by its word: bits 1:0 of D name the q bit, bit 2 the unsigned comparison, and bits 5:3 are zero. -/
def Obligations.ScalarCompareByItsWord : Prop :=
  (∀ (q : BitVec 2) (u : BitVec 1) (a b : BitVec 6) (fn : BitVec 3) (k : BitVec 9) (x : Nat), fn.toNat < 6 →
    Reads (fs 0x18 (0#3 ++ u ++ q) a 1 fn k) x (.scmp fn (u == 1) q a (.imm k)) ∧
    Reads (fs 0x18 (0#3 ++ u ++ q) a 0 fn (b ++ 0#3)) x (.scmp fn (u == 1) q a (.reg b))) ∧
  (∀ (d a : BitVec 6) (i : BitVec 1) (fn : BitVec 3) (k : BitVec 9), 8 ≤ d.toNat ∨ 6 ≤ fn.toNat → Refused (fs 0x18 d a i fn k)) ∧
  (∀ (q : BitVec 2) (a : SReg) (b : SOpnd),
    ScalarEffect (.scmp 0 false q a b) (fun x => x.setQ q.toNat (decide (sreg x.s a = word x.s b))) ∧
    ScalarEffect (.scmp 1 false q a b) (fun x => x.setQ q.toNat (decide (sreg x.s a ≠ word x.s b))) ∧
    ScalarEffect (.scmp 2 false q a b) (fun x => x.setQ q.toNat ((sreg x.s a).slt (word x.s b))) ∧
    ScalarEffect (.scmp 3 false q a b) (fun x => x.setQ q.toNat ((sreg x.s a).sle (word x.s b))) ∧
    ScalarEffect (.scmp 4 false q a b) (fun x => x.setQ q.toNat ((word x.s b).slt (sreg x.s a))) ∧
    ScalarEffect (.scmp 5 false q a b) (fun x => x.setQ q.toNat ((word x.s b).sle (sreg x.s a))) ∧
    ScalarEffect (.scmp 0 true q a b) (fun x => x.setQ q.toNat (decide (sreg x.s a = word x.s b))) ∧
    ScalarEffect (.scmp 1 true q a b) (fun x => x.setQ q.toNat (decide (sreg x.s a ≠ word x.s b))) ∧
    ScalarEffect (.scmp 2 true q a b) (fun x => x.setQ q.toNat ((sreg x.s a).ult (word x.s b))) ∧
    ScalarEffect (.scmp 3 true q a b) (fun x => x.setQ q.toNat ((sreg x.s a).ule (word x.s b))) ∧
    ScalarEffect (.scmp 4 true q a b) (fun x => x.setQ q.toNat ((word x.s b).ult (sreg x.s a))) ∧
    ScalarEffect (.scmp 5 true q a b) (fun x => x.setQ q.toNat ((word x.s b).ule (sreg x.s a))))

/-- 06 R163, R164: SMOV, SSEL and SIMM by their words, what they write, and the words of their majors that trap. -/
def Obligations.ScalarMovesByTheirWords : Prop :=
  (∀ (d a b : BitVec 6) (q : BitVec 2) (k : BitVec 9) (imm : BitVec 32) (x : Nat),
    Reads (fs 0x1A d 0 1 0 k) x (.smov d (.imm k)) ∧ Reads (fs 0x1A d 0 0 0 (b ++ 0#3)) x (.smov d (.reg b)) ∧
    Reads (fs 0x1A d a 1 (1#1 ++ q) k) x (.ssel q d a (.imm k)) ∧ Reads (fs 0x1A d a 0 (1#1 ++ q) (b ++ 0#3)) x (.ssel q d a (.reg b)) ∧
    Reads (fs 0x1B d 0 0 0 0) imm.toNat (.simm d imm) ∧ instrLen (fs 0x1B d 0 0 0 0) = 2) ∧
  (∀ (d a : BitVec 6) (i : BitVec 1) (fn : BitVec 3) (k : BitVec 9),
    (fn = 1 ∨ fn = 2 ∨ fn = 3 → Refused (fs 0x1A d a i fn k)) ∧ (fn = 0 → a ≠ 0 → Refused (fs 0x1A d a i fn k)) ∧
    (a ≠ 0 ∨ i ≠ 0 ∨ fn ≠ 0 ∨ k ≠ 0 → Refused (fs 0x1B d a i fn k))) ∧
  (∀ (d a : SReg) (q : BitVec 2) (b : SOpnd) (imm : BitVec 32),
    ScalarEffect (.smov d b) (fun x => wr x d (word x.s b)) ∧
    ScalarEffect (.ssel q d a b) (fun x => wr x d (if x.q.getLsbD q.toNat then sreg x.s a else word x.s b)) ∧
    ScalarEffect (.simm d imm) (fun x => wr x d imm))

/-- 04 R95 to R98, R116, R435; 02 R28: a step of a window is the instruction that the code of its agent gives there, on the
state in which that agent issues, after which the window of that agent counts as granted, or the trap of a word that no instruction has; a clause is opened at the frontier on the
lanes that stand there and its predicate selects, and at the pc of a mending core; until its first instruction has issued a warp
meets its clause anew; filler sends the lanes to the next line. Without a window, a step is the event that
is due, or one of the device's own. What the device does of itself after a step is afterStep. That one step performs one act of one
agent is log 1, and the order of the device's own events is log 22. -/
def Obligations.StepRunsDecodedInstruction : Prop :=
  (∀ (s t : State) (wk : Nat) (v : Warp) (c : ClausePos) (w x : Nat), NextOfWarp s wk v c w x t →
    (InClause c w →
      (∀ i, decodeInstr w x = some i → (mustEnd i = true → c.next + 4 * instrLen w = c.stop) →
        (v.handler = true → c.cls = 1 ∨ c.cls = 2 ∨ inHandler i = true) → step s = afterStep (t.issueInstr i)) ∧
      (∀ i, decodeInstr w x = some i → mustEnd i = true → c.next + 4 * instrLen w ≠ c.stop →
        step s = afterStep (trapRes t cEncoding c.act)) ∧
      (∀ i, decodeInstr w x = some i → v.handler = true → c.cls ≠ 1 → c.cls ≠ 2 → inHandler i = false →
        step s = afterStep (trapRes t cEncoding c.act)) ∧
      (decodeInstr w x = none → step s = afterStep (trapRes t cEncoding c.act))) ∧
    (w / 2 ^ 29 % 8 ≠ c.cls → step s = afterStep (trapRes t cEncoding c.act))) ∧
  (∀ (s t : State) (m : Nat) (y : Mend) (c : ClausePos) (w x : Nat), NextOfMend s m y c w x t →
    (InClause c w → c.cls = 1 ∨ c.cls = 4 ∨ c.cls = 7 →
      (∀ i, decodeInstr w x = some i → (mustEnd i = true → c.next + 4 * instrLen w = c.stop) → step s = afterStep (t.issueInstr i)) ∧
      (∀ i, decodeInstr w x = some i → mustEnd i = true → c.next + 4 * instrLen w ≠ c.stop →
        step s = afterStep (trapRes t cEncoding c.act)) ∧
      (decodeInstr w x = none → step s = afterStep (trapRes t cEncoding c.act))) ∧
    (w / 2 ^ 29 % 8 ≠ c.cls ∨ (c.cls ≠ 1 ∧ c.cls ≠ 4 ∧ c.cls ≠ 7) → step s = afterStep (trapRes t cEncoding c.act))) ∧
  (∀ (s : State) (wk : Nat) (r : List Agent) (v : Warp) (f : Nat) (line : Nat → Nat), s.ctl.issue = .warp wk :: r →
    kget s.warps wk = some v → v.inClause = none → s.issuable v = true → v.swWait = false ∨ v.sb = [] → v.frontier = some f →
    ((s.popIssue r).begin (.warp wk) { pc := f, word := 0, ext := 0 }).fetchLine v f = .ok line → headerOk line (wordIx f) = true →
    (f ∈ v.merged → hdrTgt (line (wordIx f)) = true) →
    let h := line (wordIx f)
    let here := lanesMask (v.lanesAt v.runLanes f)
    let act := here &&& v.predN (hdrPred h) (hdrNeg h)
    let c := openClause line f here act
    let v' := { v with clause := none, swWait := false, merged := dropNat v.merged f }
    let b := (s.popIssue r).begin (.warp wk) { pc := f, word := h, ext := 0 }
    (act = 0 → step s = .next (b.setWarp wk { v'.fallTo (lanesOf (here &&& v.live)) c.nexth with clause := none, swWait := hdrSw h }).settle) ∧
    (act ≠ 0 → (∃ k < 8, hdrWait h / 2 ^ k % 2 = 1 ∧ v.slot k ≠ 0) → step s = .next b.settle) ∧
    (act ≠ 0 → (∀ k < 8, hdrWait h / 2 ^ k % 2 = 1 → v.slot k = 0) → ∀ w x i, At line (f + 4) w x → InClause c w →
      decodeInstr w x = some i → (mustEnd i = true → f + 4 + 4 * instrLen w = c.stop) →
      (v.handler = true → c.cls = 1 ∨ c.cls = 2 ∨ inHandler i = true) →
      step s = afterStep (((b.setWarp wk { v' with clause := some c }).begin (.warp wk)
        { pc := f + 4, word := w, ext := x, hdr := f }).issueInstr i))) ∧
  (∀ (s : State) (wk : Nat) (r : List Agent) (v : Warp) (f : Nat) (line : Nat → Nat), s.ctl.issue = .warp wk :: r →
    kget s.warps wk = some v → v.inClause = none → s.issuable v = true → v.swWait = false ∨ v.sb = [] → v.frontier = some f →
    ((s.popIssue r).begin (.warp wk) { pc := f, word := 0, ext := 0 }).fetchLine v f = .ok line → line (wordIx f) = 0 →
    let next := (f / 128 + 1) * 128
    let v' := { v with clause := none, swWait := false, merged := dropNat v.merged f }.fallTo (v.lanesAt v.runLanes f) next
    step s = .next (((s.popIssue r).begin (.warp wk) { pc := f, word := 0, ext := 0 }).setWarp wk
      { v' with merged := if f ∈ v.merged then next :: v'.merged else v'.merged }).settle) ∧
  (∀ (s : State) (m : Nat) (r : List Agent) (y : Mend), s.ctl.issue = .mend m :: r → kget s.mends m = some y → y.clause = none →
    y.halted = false → s.mendWaits m = false → y.resume = none → headerOk (y.line y.pc) (wordIx y.pc) = true → hdrPred (y.line y.pc (wordIx y.pc)) = 7 →
    let h := y.line y.pc (wordIx y.pc)
    let c := openClause (y.line y.pc) y.pc 1 1
    let b := (s.popIssue r).begin (.mend m) { pc := y.pc, word := h, ext := 0, hdr := y.pc }
    (hdrNeg h = true → step s = .next (b.setMend m { y with pc := c.nexth }).settle) ∧
    (hdrNeg h = false → ∀ w x i, At (y.line y.pc) (y.pc + 4) w x → InClause c w → c.cls = 1 ∨ c.cls = 4 ∨ c.cls = 7 →
      decodeInstr w x = some i → (mustEnd i = true → y.pc + 4 + 4 * instrLen w = c.stop) →
      step s = afterStep (((b.setMend m { y with clause := some c }).begin (.mend m)
        { pc := y.pc + 4, word := w, ext := x, hdr := y.pc }).issueInstr i))) ∧
  (∀ (t : State) (i : Instr), (∀ u : State, exec i t = .next u → t.issueInstr i = .next (u.countGrant t)) ∧
    (∀ e, exec i t = .fault e → t.issueInstr i = .fault e) ∧ (∀ e, exec i t = .refused e → t.issueInstr i = .refused e) ∧
    (t.ctl.grant = none → ∀ u : State, u.countGrant t = u)) ∧
  (∀ s : State, s.ctl.issue = [] →
    (∀ e q, s.ctl.selfq = e :: q → (s.ctl.agenda = [] ∨ s.choice % 2 ≠ 1) →
      step s = afterStep (exec e { s with ctl := { s.ctl with cur := none, selfq := q } })) ∧
    (∀ e q, s.ctl.agenda = e :: q → (s.ctl.selfq = [] ∨ s.choice % 2 = 1) →
      step s = afterStep (exec e { s with ctl := { s.ctl with cur := none, agenda := q } })) ∧
    (s.ctl.selfq = [] → s.ctl.agenda = [] → step s = .next s.ownEvent.settle))

/-- 00, 02 R56, 15 R379: a step always answers a next state when what is due are events: an instruction has its effect,
waits or traps, and an event has its effect or none (log 21). One step performs one act (log 1), and an instruction that waits at issue
answers a next state (log 7). -/
def Obligations.EveryStepAnswers : Prop :=
  ∀ s : State, (∀ i ∈ s.ctl.selfq ++ s.ctl.agenda, encode i = []) → SafeStep s

/-- 02 R27, R56: after every step no agent is issuing, and those that stand in the window in progress are resident, not
parked, not held, not stopped with their group and not halted. -/
def Obligations.OnlyAgentsThatMayIssueStayInTheWindow : Prop :=
  ∀ s t : State, step s = .next t → WindowInv t

/-- 04 R99; 03 R61, R72; 08 R245: a step keeps the form that the model gives its state, from every state that has it, whether or not a
run reaches that state: maps and memories by rising keys, no zero byte listed, and no scoreboard count above 63, the count at which
R99 holds an instruction. That a count stays in bounds is the manual's; the form of the maps and memories is the model's own. -/
def Obligations.StepsKeepTheStateCanonical : Prop :=
  ∀ s t : State, Canonical s → step s = .next t → Canonical t

/-- 01 Table 1-6; 02 R42; 03 Tables 3-9, 3-15, R76; 10 Tables 10-2, 10-10, R290; 11 Tables 11-4, 11-8, 11-12; 12 R355, Table 12-4,
R361; 16 R410; 17 Tables 17-1, 17-5, 17-6, R417, R425: the device right after reset, as the manual gives it, read where the host
and the management controller read it; the TAG of each memory-fault slot is 0xFFFF (16 Table 16-1), and the state has its canonical
form. Memory reads zero where nothing has written it (log 2), and no agent issues (log 5). -/
def Obligations.ResetIsAsTheManualSays : Prop :=
  let s := State.reset
  WindowInv s ∧ Canonical s ∧ s.warps = [] ∧ s.groups = [] ∧ s.grids = [] ∧ s.seams = [] ∧
  (∀ q < 256, s.windowRead (areaCtl + 64 * q) = 2 ^ 29 ∧ ∀ j < 8, j ≠ 0 → s.windowRead (areaCtl + 64 * q + 8 * j) = 0) ∧
  (∀ p < 8, ∀ j < 8, s.windowRead (areaParts + 64 * p + 8 * j) = 0) ∧
  (∀ l < 64, ∀ j < 4, s.windowRead (areaLanding + 32 * l + 8 * j) = 0) ∧
  (∀ h < 15, ∀ j < 8, s.windowRead (areaHostWin + 64 * h + 8 * j) = 0) ∧
  s.windowRead areaPlanes = 0xFEDCBA9876543210 ∧ s.windowRead (areaPlanes + 8) = 0 ∧ s.windowRead (areaPlanes + 16) = 0 ∧
  s.windowRead areaCkpt = 0 ∧ s.windowRead areaStatus % 2 ^ 32 = 0x4B7D4C04 ∧
  s.mgmtReg 0 = some 0x01000000 ∧ s.mgmtReg 0x150 = some 0x0320 ∧ s.mgmtReg 0x151 = some 0x0370 ∧ s.mgmtReg 0x152 = some 0x02F8 ∧
  s.mgmtReg 0x153 = some 0x0348 ∧ s.mgmtReg 0x190 = some 0 ∧ s.mgmtReg 0x30 = some 0 ∧ s.mgmtReg 0x32 = some 0 ∧
  s.mgmtReg 0x33 = some 0 ∧ s.mgmtReg 0x300 = some 0 ∧ s.mgmtReg 0x312 = some 0 ∧
  (∀ n < 16, s.mgmtReg (0x200 + n) = some 0 ∧ s.mgmtReg (0x220 + 2 * n) = some 0 ∧ s.mgmtReg (0x221 + 2 * n) = some 0) ∧
  (∀ l < 65536, (s.lease l).bits = 0) ∧ (∀ c < 256, (s.core c).cycles = 0) ∧ (∀ a, s.mem.num false a 8 = 0) ∧
  (∀ e ∈ s.mends, ∀ i < 256, mnum e.2.sram (0xA000 + 32 * i) 2 = 0xFFFF ∧ mnum e.2.sram (0xA002 + 32 * i) 30 = 0)
end

