-- ==== Sys2Proof/Laws/Maps.lean ====
section
/-! SUPPORT. Reads after writes of finite maps and sparse files, and the canonical form that every memory operation
keeps. -/

namespace Sys2Proof.Laws

open Sys2Proof.Machine

variable {α : Type}

@[simp] theorem kget_nil (k : Nat) : kget ([] : KV α) k = none := rfl

@[simp] theorem kget_kset_same (l : KV α) (k : Nat) (x : α) : kget (kset l k x) k = some x := by
  induction l with
  | nil => simp [kset, kget]
  | cons e r ih =>
    obtain ⟨j, y⟩ := e
    simp only [kset]
    split
    · simp [kget]
    · split
      · simp [kget]
      · simp only [kget, ih]; split
        · omega
        · rfl

theorem kget_kset_ne (l : KV α) {k m : Nat} (x : α) (h : m ≠ k) : kget (kset l k x) m = kget l m := by
  induction l with
  | nil => simp [kset, kget, Ne.symm h]
  | cons e r ih =>
    obtain ⟨j, y⟩ := e
    simp only [kset]
    split
    · simp only [kget]; split
      · omega
      · rfl
    · split
      · rename_i hk; subst hk; simp [kget, Ne.symm h]
      · simp only [kget, ih]

theorem kget_kset (l : KV α) (k m : Nat) (x : α) : kget (kset l k x) m = if m = k then some x else kget l m := by
  split
  · rename_i h; subst h; simp
  · rename_i h; exact kget_kset_ne l x h

@[simp] theorem kget_kmod_same (l : KV α) (k : Nat) (f : α → α) : kget (kmod l k f) k = (kget l k).map f := by
  unfold kmod; split
  · rename_i h; simp [h]
  · rename_i h; simp [h]

theorem kget_kmod_ne (l : KV α) {k m : Nat} (f : α → α) (h : m ≠ k) : kget (kmod l k f) m = kget l m := by
  unfold kmod; split
  · rfl
  · exact kget_kset_ne l _ h

theorem kget_kdel_ne (l : KV α) {k m : Nat} (h : m ≠ k) : kget (kdel l k) m = kget l m := by
  induction l with
  | nil => rfl
  | cons e r ih =>
    obtain ⟨j, y⟩ := e
    simp only [kdel]; split
    · rename_i hj; subst hj; simp [kget, Ne.symm h]
    · simp only [kget, ih]

@[simp] theorem kget_kmap {β : Type} (f : Nat → α → β) (l : KV α) (k : Nat) : kget (kmap f l) k = (kget l k).map (f k) := by
  induction l with
  | nil => rfl
  | cons e r ih =>
    obtain ⟨j, y⟩ := e
    simp only [kmap, List.map_cons, kget]; split
    · rename_i h; subst h; rfl
    · simpa [kmap] using ih

/-! ### Ascending keys -/

theorem kabove_mono {b c : Nat} (h : b ≤ c) : ∀ (l : KV α), kabove c l = true → kabove b l = true
  | [], _ => rfl
  | (j, _) :: r, hl => by
    simp only [kabove, Bool.and_eq_true, decide_eq_true_eq] at hl ⊢
    exact ⟨by omega, hl.2⟩

theorem kabove_kset {b k : Nat} (hb : b < k) (x : α) : ∀ (l : KV α), kabove b l = true → kabove b (kset l k x) = true
  | [], _ => by simp [kset, kabove, hb]
  | (j, y) :: r, hl => by
    simp only [kabove, Bool.and_eq_true, decide_eq_true_eq] at hl
    simp only [kset]; split
    · simp [kabove, hb, hl.2]; omega
    · split
      · rename_i h; subst h; simp [kabove, hb, hl.2]
      · simp only [kabove, Bool.and_eq_true, decide_eq_true_eq]
        exact ⟨hl.1, kabove_kset (by omega) x r hl.2⟩

theorem ksorted_of_above {b : Nat} : ∀ {l : KV α}, kabove b l = true → ksorted l = true
  | [], _ => rfl
  | (j, _) :: r, h => by
    simp only [kabove, Bool.and_eq_true] at h
    exact h.2

theorem ksorted_kset (l : KV α) (k : Nat) (x : α) (h : ksorted l = true) : ksorted (kset l k x) = true := by
  match l with
  | [] => rfl
  | (j, y) :: r =>
    simp only [ksorted] at h
    simp only [kset]; split
    · rename_i hk; simp [ksorted, kabove, hk, h]
    · split
      · rename_i hk; subst hk; exact h
      · exact kabove_kset (by omega) x r h

theorem kabove_kdel {b : Nat} (k : Nat) : ∀ (l : KV α), kabove b l = true → kabove b (kdel l k) = true
  | [], _ => rfl
  | (j, y) :: r, hl => by
    simp only [kabove, Bool.and_eq_true, decide_eq_true_eq] at hl
    simp only [kdel]; split
    · exact kabove_mono (by omega) r hl.2
    · simp only [kabove, Bool.and_eq_true, decide_eq_true_eq]
      exact ⟨hl.1, kabove_kdel k r hl.2⟩

theorem ksorted_kdel (l : KV α) (k : Nat) (h : ksorted l = true) : ksorted (kdel l k) = true := by
  match l with
  | [] => rfl
  | (j, y) :: r =>
    simp only [ksorted] at h
    simp only [kdel]; split
    · exact ksorted_of_above h
    · exact kabove_kdel k r h

theorem kabove_filter {b : Nat} (f : Nat × α → Bool) : ∀ (l : KV α), kabove b l = true → kabove b (l.filter f) = true
  | [], _ => rfl
  | (j, y) :: r, hl => by
    simp only [kabove, Bool.and_eq_true, decide_eq_true_eq] at hl
    simp only [List.filter]; split
    · simp only [kabove, Bool.and_eq_true, decide_eq_true_eq]
      exact ⟨hl.1, kabove_filter f r hl.2⟩
    · exact kabove_mono (Nat.le_of_lt hl.1) _ (kabove_filter f r hl.2)

theorem ksorted_filter (f : Nat × α → Bool) (l : KV α) (h : ksorted l = true) : ksorted (l.filter f) = true := by
  match l with
  | [] => rfl
  | (j, y) :: r =>
    simp only [ksorted] at h
    simp only [List.filter]; split
    · exact kabove_filter f r h
    · exact ksorted_of_above (kabove_filter f r h)

theorem kget_above {b k : Nat} (h : k ≤ b) : ∀ {l : KV α}, kabove b l = true → kget l k = none
  | [], _ => rfl
  | (j, y) :: r, hl => by
    simp only [kabove, Bool.and_eq_true, decide_eq_true_eq] at hl
    have := kget_above (b := j) (k := k) (by omega) hl.2
    simp only [kget]; split
    · omega
    · exact this

theorem kget_kdel_same (l : KV α) (k : Nat) (h : ksorted l = true) : kget (kdel l k) k = none := by
  induction l with
  | nil => rfl
  | cons e r ih =>
    obtain ⟨j, y⟩ := e
    simp only [kdel]; split
    · rename_i hj; subst hj; exact kget_above (Nat.le_refl _) h
    · rename_i hj; simp only [kget, if_neg hj]
      exact ih (ksorted_of_above h)

/-! ### Sparse files -/

theorem all_kset (p : Nat × α → Bool) (l : KV α) (k : Nat) (x : α) (hx : p (k, x) = true) (h : l.all p = true) :
    (kset l k x).all p = true := by
  induction l with
  | nil => simp [kset, hx]
  | cons e r ih =>
    obtain ⟨j, y⟩ := e
    simp only [List.all_cons, Bool.and_eq_true] at h
    simp only [kset]; split
    · simp [hx, h]
    · split
      · simp [hx, h]
      · simp only [List.all_cons, Bool.and_eq_true]; exact ⟨h.1, ih h.2⟩

theorem all_kdel (p : Nat × α → Bool) (l : KV α) (k : Nat) (h : l.all p = true) : (kdel l k).all p = true := by
  induction l with
  | nil => rfl
  | cons e r ih =>
    obtain ⟨j, y⟩ := e
    simp only [List.all_cons, Bool.and_eq_true] at h
    simp only [kdel]; split
    · exact h.2
    · simp only [List.all_cons, Bool.and_eq_true]; exact ⟨h.1, ih h.2⟩

variable [DecidableEq α]

theorem sget_sset_same (d : α) (l : KV α) (k : Nat) (x : α) (h : ksorted l = true) : sget d (sset d l k x) k = x := by
  unfold sset; split
  · rename_i hx; subst hx; simp [sget, kget_kdel_same l k h]
  · simp [sget]

theorem sget_sset_ne (d : α) (l : KV α) {k m : Nat} (x : α) (h : m ≠ k) : sget d (sset d l k x) m = sget d l m := by
  unfold sset; split
  · simp [sget, kget_kdel_ne l h]
  · simp [sget, kget_kset_ne l x h]

theorem swf_sset (d : α) (l : KV α) (k : Nat) (x : α) (h : swf d l = true) : swf d (sset d l k x) = true := by
  simp only [swf, Bool.and_eq_true] at h ⊢
  unfold sset; split
  · exact ⟨ksorted_kdel l k h.1, all_kdel _ l k h.2⟩
  · rename_i hx
    exact ⟨ksorted_kset l k x h.1, all_kset _ l k x (by simp [hx]) h.2⟩

theorem swf_filter (d : α) (f : Nat × α → Bool) (l : KV α) (h : swf d l = true) : swf d (l.filter f) = true := by
  simp only [swf, Bool.and_eq_true] at h ⊢
  refine ⟨ksorted_filter f l h.1, ?_⟩
  rw [List.all_eq_true] at h ⊢
  exact fun e he => h.2 e (List.mem_filter.1 he).1

/-! ### Memory -/

theorem Memory_wf_nil : Memory.wf [] = true := rfl

theorem mset_wf (m : Memory) (a : Nat) (b : Byte) (h : m.wf = true) : (mset m a b).wf = true := swf_sset 0 m a b h

theorem mwrite_wf (bs : List Byte) : ∀ (m : Memory) (a : Nat), m.wf = true → (mwrite m a bs).wf = true := by
  induction bs with
  | nil => intro m a h; exact h
  | cons b r ih => intro m a h; exact ih _ _ (mset_wf m a b h)

theorem mclear_wf (m : Memory) (a n : Nat) (h : m.wf = true) : (mclear m a n).wf = true := swf_filter 0 _ m h

theorem filter_wf (m : Memory) (f : Host.Cell → Bool) (h : m.wf = true) : Memory.wf (m.filter f) = true := swf_filter 0 f m h

theorem moverlay_wf (src : Memory) : ∀ (m : Memory), m.wf = true → (moverlay m src).wf = true := by
  unfold moverlay
  induction src with
  | nil => intro m h; exact h
  | cons e r ih => intro m h; exact ih _ (mset_wf m e.1 e.2 h)

theorem mcopy_wf (dst src : Memory) (b a n : Nat) (h : dst.wf = true) : (mcopy dst b src a n).wf = true :=
  moverlay_wf _ _ (mclear_wf dst b n h)

theorem mget_mset_same (m : Memory) (a : Nat) (b : Byte) (h : m.wf = true) : mget (mset m a b) a = b := by
  simp only [Memory.wf, swf, Bool.and_eq_true] at h
  exact sget_sset_same 0 m a b h.1

theorem mget_mset_ne (m : Memory) {a x : Nat} (b : Byte) (h : x ≠ a) : mget (mset m a b) x = mget m x :=
  sget_sset_ne 0 m b h

theorem mget_mwrite_below (bs : List Byte) : ∀ (m : Memory) (a x : Nat), x < a → mget (mwrite m a bs) x = mget m x := by
  induction bs with
  | nil => intro m a x _; rfl
  | cons b r ih =>
    intro m a x h
    rw [mwrite, ih _ _ _ (by omega), mget_mset_ne m b (by omega)]

/-- Bytes outside the stored ones read as before. -/
theorem mget_mwrite_out (bs : List Byte) : ∀ (m : Memory) (a x : Nat), x < a ∨ a + bs.length ≤ x → mget (mwrite m a bs) x = mget m x := by
  induction bs with
  | nil => intro m a x _; rfl
  | cons b r ih =>
    intro m a x h
    simp only [List.length_cons] at h
    rw [mwrite, ih _ _ _ (by omega), mget_mset_ne m b (by omega)]

/-- Every stored byte reads back. -/
theorem mget_mwrite_in (bs : List Byte) : ∀ (m : Memory) (a i : Nat), m.wf = true → (h : i < bs.length) →
    mget (mwrite m a bs) (a + i) = bs[i] := by
  induction bs with
  | nil => intro m a i _ h; exact absurd h (by simp)
  | cons b r ih =>
    intro m a i hm h
    cases i with
    | zero => rw [mwrite, mget_mwrite_below _ _ _ _ (by omega)]; exact mget_mset_same m a b hm
    | succ n =>
      have e : a + (n + 1) = a + 1 + n := by omega
      rw [mwrite, e, ih _ _ n (mset_wf m a b hm) (by simpa using h)]
      simp

end Sys2Proof.Laws
end

