-- ==== Sys2Proof/Laws/State.lean ====
section
/-! SUPPORT. What each update of one part of the state leaves of every field. -/

namespace Sys2Proof.Laws

open Sys2Proof.Machine

@[simp] theorem setWarp_warps (s : State) (wk : Nat) (w : Warp) : (s.setWarp wk w).warps = kset s.warps wk w := rfl
@[simp] theorem setWarp_groups (s : State) (wk : Nat) (w : Warp) : (s.setWarp wk w).groups = s.groups := rfl
@[simp] theorem setWarp_grids (s : State) (wk : Nat) (w : Warp) : (s.setWarp wk w).grids = s.grids := rfl
@[simp] theorem setWarp_cores (s : State) (wk : Nat) (w : Warp) : (s.setWarp wk w).cores = s.cores := rfl
@[simp] theorem setWarp_mends (s : State) (wk : Nat) (w : Warp) : (s.setWarp wk w).mends = s.mends := rfl
@[simp] theorem setWarp_mem (s : State) (wk : Nat) (w : Warp) : (s.setWarp wk w).mem = s.mem := rfl
@[simp] theorem setWarp_ops (s : State) (wk : Nat) (w : Warp) : (s.setWarp wk w).ops = s.ops := rfl
@[simp] theorem setWarp_sends (s : State) (wk : Nat) (w : Warp) : (s.setWarp wk w).sends = s.sends := rfl
@[simp] theorem setWarp_sched (s : State) (wk : Nat) (w : Warp) : (s.setWarp wk w).sched = s.sched := rfl
@[simp] theorem setWarp_seams (s : State) (wk : Nat) (w : Warp) : (s.setWarp wk w).seams = s.seams := rfl
@[simp] theorem setWarp_fab (s : State) (wk : Nat) (w : Warp) : (s.setWarp wk w).fab = s.fab := rfl
@[simp] theorem setWarp_host (s : State) (wk : Nat) (w : Warp) : (s.setWarp wk w).host = s.host := rfl
@[simp] theorem setWarp_land (s : State) (wk : Nat) (w : Warp) : (s.setWarp wk w).land = s.land := rfl
@[simp] theorem setWarp_clus (s : State) (wk : Nat) (w : Warp) : (s.setWarp wk w).clus = s.clus := rfl
@[simp] theorem setWarp_mgmt (s : State) (wk : Nat) (w : Warp) : (s.setWarp wk w).mgmt = s.mgmt := rfl
@[simp] theorem setWarp_ctl (s : State) (wk : Nat) (w : Warp) : (s.setWarp wk w).ctl = s.ctl := rfl

@[simp] theorem modWarp_warps (s : State) (wk : Nat) (f : Warp → Warp) : (s.modWarp wk f).warps = kmod s.warps wk f := rfl
@[simp] theorem modWarp_groups (s : State) (wk : Nat) (f : Warp → Warp) : (s.modWarp wk f).groups = s.groups := rfl
@[simp] theorem modWarp_grids (s : State) (wk : Nat) (f : Warp → Warp) : (s.modWarp wk f).grids = s.grids := rfl
@[simp] theorem modWarp_cores (s : State) (wk : Nat) (f : Warp → Warp) : (s.modWarp wk f).cores = s.cores := rfl
@[simp] theorem modWarp_mends (s : State) (wk : Nat) (f : Warp → Warp) : (s.modWarp wk f).mends = s.mends := rfl
@[simp] theorem modWarp_mem (s : State) (wk : Nat) (f : Warp → Warp) : (s.modWarp wk f).mem = s.mem := rfl
@[simp] theorem modWarp_ops (s : State) (wk : Nat) (f : Warp → Warp) : (s.modWarp wk f).ops = s.ops := rfl
@[simp] theorem modWarp_sends (s : State) (wk : Nat) (f : Warp → Warp) : (s.modWarp wk f).sends = s.sends := rfl
@[simp] theorem modWarp_sched (s : State) (wk : Nat) (f : Warp → Warp) : (s.modWarp wk f).sched = s.sched := rfl
@[simp] theorem modWarp_seams (s : State) (wk : Nat) (f : Warp → Warp) : (s.modWarp wk f).seams = s.seams := rfl
@[simp] theorem modWarp_fab (s : State) (wk : Nat) (f : Warp → Warp) : (s.modWarp wk f).fab = s.fab := rfl
@[simp] theorem modWarp_host (s : State) (wk : Nat) (f : Warp → Warp) : (s.modWarp wk f).host = s.host := rfl
@[simp] theorem modWarp_land (s : State) (wk : Nat) (f : Warp → Warp) : (s.modWarp wk f).land = s.land := rfl
@[simp] theorem modWarp_clus (s : State) (wk : Nat) (f : Warp → Warp) : (s.modWarp wk f).clus = s.clus := rfl
@[simp] theorem modWarp_mgmt (s : State) (wk : Nat) (f : Warp → Warp) : (s.modWarp wk f).mgmt = s.mgmt := rfl
@[simp] theorem modWarp_ctl (s : State) (wk : Nat) (f : Warp → Warp) : (s.modWarp wk f).ctl = s.ctl := rfl

@[simp] theorem setGroup_warps (s : State) (gk : Nat) (g : Group) : (s.setGroup gk g).warps = s.warps := rfl
@[simp] theorem setGroup_groups (s : State) (gk : Nat) (g : Group) : (s.setGroup gk g).groups = kset s.groups gk g := rfl
@[simp] theorem setGroup_grids (s : State) (gk : Nat) (g : Group) : (s.setGroup gk g).grids = s.grids := rfl
@[simp] theorem setGroup_cores (s : State) (gk : Nat) (g : Group) : (s.setGroup gk g).cores = s.cores := rfl
@[simp] theorem setGroup_mends (s : State) (gk : Nat) (g : Group) : (s.setGroup gk g).mends = s.mends := rfl
@[simp] theorem setGroup_mem (s : State) (gk : Nat) (g : Group) : (s.setGroup gk g).mem = s.mem := rfl
@[simp] theorem setGroup_ops (s : State) (gk : Nat) (g : Group) : (s.setGroup gk g).ops = s.ops := rfl
@[simp] theorem setGroup_sends (s : State) (gk : Nat) (g : Group) : (s.setGroup gk g).sends = s.sends := rfl
@[simp] theorem setGroup_sched (s : State) (gk : Nat) (g : Group) : (s.setGroup gk g).sched = s.sched := rfl
@[simp] theorem setGroup_seams (s : State) (gk : Nat) (g : Group) : (s.setGroup gk g).seams = s.seams := rfl
@[simp] theorem setGroup_fab (s : State) (gk : Nat) (g : Group) : (s.setGroup gk g).fab = s.fab := rfl
@[simp] theorem setGroup_host (s : State) (gk : Nat) (g : Group) : (s.setGroup gk g).host = s.host := rfl
@[simp] theorem setGroup_land (s : State) (gk : Nat) (g : Group) : (s.setGroup gk g).land = s.land := rfl
@[simp] theorem setGroup_clus (s : State) (gk : Nat) (g : Group) : (s.setGroup gk g).clus = s.clus := rfl
@[simp] theorem setGroup_mgmt (s : State) (gk : Nat) (g : Group) : (s.setGroup gk g).mgmt = s.mgmt := rfl
@[simp] theorem setGroup_ctl (s : State) (gk : Nat) (g : Group) : (s.setGroup gk g).ctl = s.ctl := rfl

@[simp] theorem modGroup_warps (s : State) (gk : Nat) (f : Group → Group) : (s.modGroup gk f).warps = s.warps := rfl
@[simp] theorem modGroup_groups (s : State) (gk : Nat) (f : Group → Group) : (s.modGroup gk f).groups = kmod s.groups gk f := rfl
@[simp] theorem modGroup_grids (s : State) (gk : Nat) (f : Group → Group) : (s.modGroup gk f).grids = s.grids := rfl
@[simp] theorem modGroup_cores (s : State) (gk : Nat) (f : Group → Group) : (s.modGroup gk f).cores = s.cores := rfl
@[simp] theorem modGroup_mends (s : State) (gk : Nat) (f : Group → Group) : (s.modGroup gk f).mends = s.mends := rfl
@[simp] theorem modGroup_mem (s : State) (gk : Nat) (f : Group → Group) : (s.modGroup gk f).mem = s.mem := rfl
@[simp] theorem modGroup_ops (s : State) (gk : Nat) (f : Group → Group) : (s.modGroup gk f).ops = s.ops := rfl
@[simp] theorem modGroup_sends (s : State) (gk : Nat) (f : Group → Group) : (s.modGroup gk f).sends = s.sends := rfl
@[simp] theorem modGroup_sched (s : State) (gk : Nat) (f : Group → Group) : (s.modGroup gk f).sched = s.sched := rfl
@[simp] theorem modGroup_seams (s : State) (gk : Nat) (f : Group → Group) : (s.modGroup gk f).seams = s.seams := rfl
@[simp] theorem modGroup_fab (s : State) (gk : Nat) (f : Group → Group) : (s.modGroup gk f).fab = s.fab := rfl
@[simp] theorem modGroup_host (s : State) (gk : Nat) (f : Group → Group) : (s.modGroup gk f).host = s.host := rfl
@[simp] theorem modGroup_land (s : State) (gk : Nat) (f : Group → Group) : (s.modGroup gk f).land = s.land := rfl
@[simp] theorem modGroup_clus (s : State) (gk : Nat) (f : Group → Group) : (s.modGroup gk f).clus = s.clus := rfl
@[simp] theorem modGroup_mgmt (s : State) (gk : Nat) (f : Group → Group) : (s.modGroup gk f).mgmt = s.mgmt := rfl
@[simp] theorem modGroup_ctl (s : State) (gk : Nat) (f : Group → Group) : (s.modGroup gk f).ctl = s.ctl := rfl

@[simp] theorem modGrid_warps (s : State) (g : Nat) (f : Grid → Grid) : (s.modGrid g f).warps = s.warps := rfl
@[simp] theorem modGrid_groups (s : State) (g : Nat) (f : Grid → Grid) : (s.modGrid g f).groups = s.groups := rfl
@[simp] theorem modGrid_grids (s : State) (g : Nat) (f : Grid → Grid) : (s.modGrid g f).grids = kmod s.grids g f := rfl
@[simp] theorem modGrid_cores (s : State) (g : Nat) (f : Grid → Grid) : (s.modGrid g f).cores = s.cores := rfl
@[simp] theorem modGrid_mends (s : State) (g : Nat) (f : Grid → Grid) : (s.modGrid g f).mends = s.mends := rfl
@[simp] theorem modGrid_mem (s : State) (g : Nat) (f : Grid → Grid) : (s.modGrid g f).mem = s.mem := rfl
@[simp] theorem modGrid_ops (s : State) (g : Nat) (f : Grid → Grid) : (s.modGrid g f).ops = s.ops := rfl
@[simp] theorem modGrid_sends (s : State) (g : Nat) (f : Grid → Grid) : (s.modGrid g f).sends = s.sends := rfl
@[simp] theorem modGrid_sched (s : State) (g : Nat) (f : Grid → Grid) : (s.modGrid g f).sched = s.sched := rfl
@[simp] theorem modGrid_seams (s : State) (g : Nat) (f : Grid → Grid) : (s.modGrid g f).seams = s.seams := rfl
@[simp] theorem modGrid_fab (s : State) (g : Nat) (f : Grid → Grid) : (s.modGrid g f).fab = s.fab := rfl
@[simp] theorem modGrid_host (s : State) (g : Nat) (f : Grid → Grid) : (s.modGrid g f).host = s.host := rfl
@[simp] theorem modGrid_land (s : State) (g : Nat) (f : Grid → Grid) : (s.modGrid g f).land = s.land := rfl
@[simp] theorem modGrid_clus (s : State) (g : Nat) (f : Grid → Grid) : (s.modGrid g f).clus = s.clus := rfl
@[simp] theorem modGrid_mgmt (s : State) (g : Nat) (f : Grid → Grid) : (s.modGrid g f).mgmt = s.mgmt := rfl
@[simp] theorem modGrid_ctl (s : State) (g : Nat) (f : Grid → Grid) : (s.modGrid g f).ctl = s.ctl := rfl

@[simp] theorem setMend_warps (s : State) (m : Nat) (c : Mend) : (s.setMend m c).warps = s.warps := rfl
@[simp] theorem setMend_groups (s : State) (m : Nat) (c : Mend) : (s.setMend m c).groups = s.groups := rfl
@[simp] theorem setMend_grids (s : State) (m : Nat) (c : Mend) : (s.setMend m c).grids = s.grids := rfl
@[simp] theorem setMend_cores (s : State) (m : Nat) (c : Mend) : (s.setMend m c).cores = s.cores := rfl
@[simp] theorem setMend_mends (s : State) (m : Nat) (c : Mend) : (s.setMend m c).mends = kset s.mends m c := rfl
@[simp] theorem setMend_mem (s : State) (m : Nat) (c : Mend) : (s.setMend m c).mem = s.mem := rfl
@[simp] theorem setMend_ops (s : State) (m : Nat) (c : Mend) : (s.setMend m c).ops = s.ops := rfl
@[simp] theorem setMend_sends (s : State) (m : Nat) (c : Mend) : (s.setMend m c).sends = s.sends := rfl
@[simp] theorem setMend_sched (s : State) (m : Nat) (c : Mend) : (s.setMend m c).sched = s.sched := rfl
@[simp] theorem setMend_seams (s : State) (m : Nat) (c : Mend) : (s.setMend m c).seams = s.seams := rfl
@[simp] theorem setMend_fab (s : State) (m : Nat) (c : Mend) : (s.setMend m c).fab = s.fab := rfl
@[simp] theorem setMend_host (s : State) (m : Nat) (c : Mend) : (s.setMend m c).host = s.host := rfl
@[simp] theorem setMend_land (s : State) (m : Nat) (c : Mend) : (s.setMend m c).land = s.land := rfl
@[simp] theorem setMend_clus (s : State) (m : Nat) (c : Mend) : (s.setMend m c).clus = s.clus := rfl
@[simp] theorem setMend_mgmt (s : State) (m : Nat) (c : Mend) : (s.setMend m c).mgmt = s.mgmt := rfl
@[simp] theorem setMend_ctl (s : State) (m : Nat) (c : Mend) : (s.setMend m c).ctl = s.ctl := rfl

@[simp] theorem modMend_warps (s : State) (m : Nat) (f : Mend → Mend) : (s.modMend m f).warps = s.warps := rfl
@[simp] theorem modMend_groups (s : State) (m : Nat) (f : Mend → Mend) : (s.modMend m f).groups = s.groups := rfl
@[simp] theorem modMend_grids (s : State) (m : Nat) (f : Mend → Mend) : (s.modMend m f).grids = s.grids := rfl
@[simp] theorem modMend_cores (s : State) (m : Nat) (f : Mend → Mend) : (s.modMend m f).cores = s.cores := rfl
@[simp] theorem modMend_mends (s : State) (m : Nat) (f : Mend → Mend) : (s.modMend m f).mends = kmod s.mends m f := rfl
@[simp] theorem modMend_mem (s : State) (m : Nat) (f : Mend → Mend) : (s.modMend m f).mem = s.mem := rfl
@[simp] theorem modMend_ops (s : State) (m : Nat) (f : Mend → Mend) : (s.modMend m f).ops = s.ops := rfl
@[simp] theorem modMend_sends (s : State) (m : Nat) (f : Mend → Mend) : (s.modMend m f).sends = s.sends := rfl
@[simp] theorem modMend_sched (s : State) (m : Nat) (f : Mend → Mend) : (s.modMend m f).sched = s.sched := rfl
@[simp] theorem modMend_seams (s : State) (m : Nat) (f : Mend → Mend) : (s.modMend m f).seams = s.seams := rfl
@[simp] theorem modMend_fab (s : State) (m : Nat) (f : Mend → Mend) : (s.modMend m f).fab = s.fab := rfl
@[simp] theorem modMend_host (s : State) (m : Nat) (f : Mend → Mend) : (s.modMend m f).host = s.host := rfl
@[simp] theorem modMend_land (s : State) (m : Nat) (f : Mend → Mend) : (s.modMend m f).land = s.land := rfl
@[simp] theorem modMend_clus (s : State) (m : Nat) (f : Mend → Mend) : (s.modMend m f).clus = s.clus := rfl
@[simp] theorem modMend_mgmt (s : State) (m : Nat) (f : Mend → Mend) : (s.modMend m f).mgmt = s.mgmt := rfl
@[simp] theorem modMend_ctl (s : State) (m : Nat) (f : Mend → Mend) : (s.modMend m f).ctl = s.ctl := rfl

@[simp] theorem modCore_warps (s : State) (c : Nat) (f : Core → Core) : (s.modCore c f).warps = s.warps := rfl
@[simp] theorem modCore_groups (s : State) (c : Nat) (f : Core → Core) : (s.modCore c f).groups = s.groups := rfl
@[simp] theorem modCore_grids (s : State) (c : Nat) (f : Core → Core) : (s.modCore c f).grids = s.grids := rfl
@[simp] theorem modCore_cores (s : State) (c : Nat) (f : Core → Core) : (s.modCore c f).cores = kset s.cores c (f (s.core c)) := rfl
@[simp] theorem modCore_mends (s : State) (c : Nat) (f : Core → Core) : (s.modCore c f).mends = s.mends := rfl
@[simp] theorem modCore_mem (s : State) (c : Nat) (f : Core → Core) : (s.modCore c f).mem = s.mem := rfl
@[simp] theorem modCore_ops (s : State) (c : Nat) (f : Core → Core) : (s.modCore c f).ops = s.ops := rfl
@[simp] theorem modCore_sends (s : State) (c : Nat) (f : Core → Core) : (s.modCore c f).sends = s.sends := rfl
@[simp] theorem modCore_sched (s : State) (c : Nat) (f : Core → Core) : (s.modCore c f).sched = s.sched := rfl
@[simp] theorem modCore_seams (s : State) (c : Nat) (f : Core → Core) : (s.modCore c f).seams = s.seams := rfl
@[simp] theorem modCore_fab (s : State) (c : Nat) (f : Core → Core) : (s.modCore c f).fab = s.fab := rfl
@[simp] theorem modCore_host (s : State) (c : Nat) (f : Core → Core) : (s.modCore c f).host = s.host := rfl
@[simp] theorem modCore_land (s : State) (c : Nat) (f : Core → Core) : (s.modCore c f).land = s.land := rfl
@[simp] theorem modCore_clus (s : State) (c : Nat) (f : Core → Core) : (s.modCore c f).clus = s.clus := rfl
@[simp] theorem modCore_mgmt (s : State) (c : Nat) (f : Core → Core) : (s.modCore c f).mgmt = s.mgmt := rfl
@[simp] theorem modCore_ctl (s : State) (c : Nat) (f : Core → Core) : (s.modCore c f).ctl = s.ctl := rfl

@[simp] theorem emit_warps (s : State) (o : Out) : (s.emit o).warps = s.warps := rfl
@[simp] theorem emit_groups (s : State) (o : Out) : (s.emit o).groups = s.groups := rfl
@[simp] theorem emit_grids (s : State) (o : Out) : (s.emit o).grids = s.grids := rfl
@[simp] theorem emit_cores (s : State) (o : Out) : (s.emit o).cores = s.cores := rfl
@[simp] theorem emit_mends (s : State) (o : Out) : (s.emit o).mends = s.mends := rfl
@[simp] theorem emit_mem (s : State) (o : Out) : (s.emit o).mem = s.mem := rfl
@[simp] theorem emit_ops (s : State) (o : Out) : (s.emit o).ops = s.ops := rfl
@[simp] theorem emit_sends (s : State) (o : Out) : (s.emit o).sends = s.sends := rfl
@[simp] theorem emit_sched (s : State) (o : Out) : (s.emit o).sched = s.sched := rfl
@[simp] theorem emit_seams (s : State) (o : Out) : (s.emit o).seams = s.seams := rfl
@[simp] theorem emit_fab (s : State) (o : Out) : (s.emit o).fab = s.fab := rfl
@[simp] theorem emit_host (s : State) (o : Out) : (s.emit o).host = s.host := rfl
@[simp] theorem emit_land (s : State) (o : Out) : (s.emit o).land = s.land := rfl
@[simp] theorem emit_clus (s : State) (o : Out) : (s.emit o).clus = s.clus := rfl
@[simp] theorem emit_mgmt (s : State) (o : Out) : (s.emit o).mgmt = s.mgmt := rfl
@[simp] theorem emit_ctl (s : State) (o : Out) : (s.emit o).ctl = { s.ctl with out := s.ctl.out ++ [o] } := rfl

@[simp] theorem selfSend_warps (s : State) (i : Instr) : (s.selfSend i).warps = s.warps := rfl
@[simp] theorem selfSend_groups (s : State) (i : Instr) : (s.selfSend i).groups = s.groups := rfl
@[simp] theorem selfSend_grids (s : State) (i : Instr) : (s.selfSend i).grids = s.grids := rfl
@[simp] theorem selfSend_cores (s : State) (i : Instr) : (s.selfSend i).cores = s.cores := rfl
@[simp] theorem selfSend_mends (s : State) (i : Instr) : (s.selfSend i).mends = s.mends := rfl
@[simp] theorem selfSend_mem (s : State) (i : Instr) : (s.selfSend i).mem = s.mem := rfl
@[simp] theorem selfSend_ops (s : State) (i : Instr) : (s.selfSend i).ops = s.ops := rfl
@[simp] theorem selfSend_sends (s : State) (i : Instr) : (s.selfSend i).sends = s.sends := rfl
@[simp] theorem selfSend_sched (s : State) (i : Instr) : (s.selfSend i).sched = s.sched := rfl
@[simp] theorem selfSend_seams (s : State) (i : Instr) : (s.selfSend i).seams = s.seams := rfl
@[simp] theorem selfSend_fab (s : State) (i : Instr) : (s.selfSend i).fab = s.fab := rfl
@[simp] theorem selfSend_host (s : State) (i : Instr) : (s.selfSend i).host = s.host := rfl
@[simp] theorem selfSend_land (s : State) (i : Instr) : (s.selfSend i).land = s.land := rfl
@[simp] theorem selfSend_clus (s : State) (i : Instr) : (s.selfSend i).clus = s.clus := rfl
@[simp] theorem selfSend_mgmt (s : State) (i : Instr) : (s.selfSend i).mgmt = s.mgmt := rfl
@[simp] theorem selfSend_ctl (s : State) (i : Instr) : (s.selfSend i).ctl = { s.ctl with selfq := s.ctl.selfq ++ [i] } := rfl

@[simp] theorem bumpOp_warps (s : State) : (s.bumpOp).warps = s.warps := rfl
@[simp] theorem bumpOp_groups (s : State) : (s.bumpOp).groups = s.groups := rfl
@[simp] theorem bumpOp_grids (s : State) : (s.bumpOp).grids = s.grids := rfl
@[simp] theorem bumpOp_cores (s : State) : (s.bumpOp).cores = s.cores := rfl
@[simp] theorem bumpOp_mends (s : State) : (s.bumpOp).mends = s.mends := rfl
@[simp] theorem bumpOp_mem (s : State) : (s.bumpOp).mem = s.mem := rfl
@[simp] theorem bumpOp_ops (s : State) : (s.bumpOp).ops = s.ops := rfl
@[simp] theorem bumpOp_sends (s : State) : (s.bumpOp).sends = s.sends := rfl
@[simp] theorem bumpOp_sched (s : State) : (s.bumpOp).sched = s.sched := rfl
@[simp] theorem bumpOp_seams (s : State) : (s.bumpOp).seams = s.seams := rfl
@[simp] theorem bumpOp_fab (s : State) : (s.bumpOp).fab = s.fab := rfl
@[simp] theorem bumpOp_host (s : State) : (s.bumpOp).host = s.host := rfl
@[simp] theorem bumpOp_land (s : State) : (s.bumpOp).land = s.land := rfl
@[simp] theorem bumpOp_clus (s : State) : (s.bumpOp).clus = s.clus := rfl
@[simp] theorem bumpOp_mgmt (s : State) : (s.bumpOp).mgmt = s.mgmt := rfl
@[simp] theorem bumpOp_ctl (s : State) : (s.bumpOp).ctl = { s.ctl with nextOp := s.ctl.nextOp + 1 } := rfl

@[simp] theorem dropChoice_warps (s : State) : (s.dropChoice).warps = s.warps := rfl
@[simp] theorem dropChoice_groups (s : State) : (s.dropChoice).groups = s.groups := rfl
@[simp] theorem dropChoice_grids (s : State) : (s.dropChoice).grids = s.grids := rfl
@[simp] theorem dropChoice_cores (s : State) : (s.dropChoice).cores = s.cores := rfl
@[simp] theorem dropChoice_mends (s : State) : (s.dropChoice).mends = s.mends := rfl
@[simp] theorem dropChoice_mem (s : State) : (s.dropChoice).mem = s.mem := rfl
@[simp] theorem dropChoice_ops (s : State) : (s.dropChoice).ops = s.ops := rfl
@[simp] theorem dropChoice_sends (s : State) : (s.dropChoice).sends = s.sends := rfl
@[simp] theorem dropChoice_sched (s : State) : (s.dropChoice).sched = s.sched := rfl
@[simp] theorem dropChoice_seams (s : State) : (s.dropChoice).seams = s.seams := rfl
@[simp] theorem dropChoice_fab (s : State) : (s.dropChoice).fab = s.fab := rfl
@[simp] theorem dropChoice_host (s : State) : (s.dropChoice).host = s.host := rfl
@[simp] theorem dropChoice_land (s : State) : (s.dropChoice).land = s.land := rfl
@[simp] theorem dropChoice_clus (s : State) : (s.dropChoice).clus = s.clus := rfl
@[simp] theorem dropChoice_mgmt (s : State) : (s.dropChoice).mgmt = s.mgmt := rfl
@[simp] theorem dropChoice_ctl (s : State) : (s.dropChoice).ctl = { s.ctl with choices := s.ctl.choices.drop 1 } := rfl

@[simp] theorem modQueue_warps (s : State) (q : Nat) (f : Queue → Queue) : (s.modQueue q f).warps = s.warps := rfl
@[simp] theorem modQueue_groups (s : State) (q : Nat) (f : Queue → Queue) : (s.modQueue q f).groups = s.groups := rfl
@[simp] theorem modQueue_grids (s : State) (q : Nat) (f : Queue → Queue) : (s.modQueue q f).grids = s.grids := rfl
@[simp] theorem modQueue_cores (s : State) (q : Nat) (f : Queue → Queue) : (s.modQueue q f).cores = s.cores := rfl
@[simp] theorem modQueue_mends (s : State) (q : Nat) (f : Queue → Queue) : (s.modQueue q f).mends = s.mends := rfl
@[simp] theorem modQueue_mem (s : State) (q : Nat) (f : Queue → Queue) : (s.modQueue q f).mem = s.mem := rfl
@[simp] theorem modQueue_ops (s : State) (q : Nat) (f : Queue → Queue) : (s.modQueue q f).ops = s.ops := rfl
@[simp] theorem modQueue_sends (s : State) (q : Nat) (f : Queue → Queue) : (s.modQueue q f).sends = s.sends := rfl
@[simp] theorem modQueue_sched (s : State) (q : Nat) (f : Queue → Queue) : (s.modQueue q f).sched = { s.sched with queues := kset s.sched.queues q (f (s.queue q)) } := rfl
@[simp] theorem modQueue_seams (s : State) (q : Nat) (f : Queue → Queue) : (s.modQueue q f).seams = s.seams := rfl
@[simp] theorem modQueue_fab (s : State) (q : Nat) (f : Queue → Queue) : (s.modQueue q f).fab = s.fab := rfl
@[simp] theorem modQueue_host (s : State) (q : Nat) (f : Queue → Queue) : (s.modQueue q f).host = s.host := rfl
@[simp] theorem modQueue_land (s : State) (q : Nat) (f : Queue → Queue) : (s.modQueue q f).land = s.land := rfl
@[simp] theorem modQueue_clus (s : State) (q : Nat) (f : Queue → Queue) : (s.modQueue q f).clus = s.clus := rfl
@[simp] theorem modQueue_mgmt (s : State) (q : Nat) (f : Queue → Queue) : (s.modQueue q f).mgmt = s.mgmt := rfl
@[simp] theorem modQueue_ctl (s : State) (q : Nat) (f : Queue → Queue) : (s.modQueue q f).ctl = s.ctl := rfl

@[simp] theorem modPart_warps (s : State) (p : Nat) (f : Part → Part) : (s.modPart p f).warps = s.warps := rfl
@[simp] theorem modPart_groups (s : State) (p : Nat) (f : Part → Part) : (s.modPart p f).groups = s.groups := rfl
@[simp] theorem modPart_grids (s : State) (p : Nat) (f : Part → Part) : (s.modPart p f).grids = s.grids := rfl
@[simp] theorem modPart_cores (s : State) (p : Nat) (f : Part → Part) : (s.modPart p f).cores = s.cores := rfl
@[simp] theorem modPart_mends (s : State) (p : Nat) (f : Part → Part) : (s.modPart p f).mends = s.mends := rfl
@[simp] theorem modPart_mem (s : State) (p : Nat) (f : Part → Part) : (s.modPart p f).mem = s.mem := rfl
@[simp] theorem modPart_ops (s : State) (p : Nat) (f : Part → Part) : (s.modPart p f).ops = s.ops := rfl
@[simp] theorem modPart_sends (s : State) (p : Nat) (f : Part → Part) : (s.modPart p f).sends = s.sends := rfl
@[simp] theorem modPart_sched (s : State) (p : Nat) (f : Part → Part) : (s.modPart p f).sched = { s.sched with parts := kset s.sched.parts p (f (s.part p)) } := rfl
@[simp] theorem modPart_seams (s : State) (p : Nat) (f : Part → Part) : (s.modPart p f).seams = s.seams := rfl
@[simp] theorem modPart_fab (s : State) (p : Nat) (f : Part → Part) : (s.modPart p f).fab = s.fab := rfl
@[simp] theorem modPart_host (s : State) (p : Nat) (f : Part → Part) : (s.modPart p f).host = s.host := rfl
@[simp] theorem modPart_land (s : State) (p : Nat) (f : Part → Part) : (s.modPart p f).land = s.land := rfl
@[simp] theorem modPart_clus (s : State) (p : Nat) (f : Part → Part) : (s.modPart p f).clus = s.clus := rfl
@[simp] theorem modPart_mgmt (s : State) (p : Nat) (f : Part → Part) : (s.modPart p f).mgmt = s.mgmt := rfl
@[simp] theorem modPart_ctl (s : State) (p : Nat) (f : Part → Part) : (s.modPart p f).ctl = s.ctl := rfl

@[simp] theorem modWin_warps (s : State) (w : Nat) (f : LandWin → LandWin) : (s.modWin w f).warps = s.warps := rfl
@[simp] theorem modWin_groups (s : State) (w : Nat) (f : LandWin → LandWin) : (s.modWin w f).groups = s.groups := rfl
@[simp] theorem modWin_grids (s : State) (w : Nat) (f : LandWin → LandWin) : (s.modWin w f).grids = s.grids := rfl
@[simp] theorem modWin_cores (s : State) (w : Nat) (f : LandWin → LandWin) : (s.modWin w f).cores = s.cores := rfl
@[simp] theorem modWin_mends (s : State) (w : Nat) (f : LandWin → LandWin) : (s.modWin w f).mends = s.mends := rfl
@[simp] theorem modWin_mem (s : State) (w : Nat) (f : LandWin → LandWin) : (s.modWin w f).mem = s.mem := rfl
@[simp] theorem modWin_ops (s : State) (w : Nat) (f : LandWin → LandWin) : (s.modWin w f).ops = s.ops := rfl
@[simp] theorem modWin_sends (s : State) (w : Nat) (f : LandWin → LandWin) : (s.modWin w f).sends = s.sends := rfl
@[simp] theorem modWin_sched (s : State) (w : Nat) (f : LandWin → LandWin) : (s.modWin w f).sched = s.sched := rfl
@[simp] theorem modWin_seams (s : State) (w : Nat) (f : LandWin → LandWin) : (s.modWin w f).seams = s.seams := rfl
@[simp] theorem modWin_fab (s : State) (w : Nat) (f : LandWin → LandWin) : (s.modWin w f).fab = s.fab := rfl
@[simp] theorem modWin_host (s : State) (w : Nat) (f : LandWin → LandWin) : (s.modWin w f).host = s.host := rfl
@[simp] theorem modWin_land (s : State) (w : Nat) (f : LandWin → LandWin) : (s.modWin w f).land = { s.land with wins := kset s.land.wins w (f (s.win w)) } := rfl
@[simp] theorem modWin_clus (s : State) (w : Nat) (f : LandWin → LandWin) : (s.modWin w f).clus = s.clus := rfl
@[simp] theorem modWin_mgmt (s : State) (w : Nat) (f : LandWin → LandWin) : (s.modWin w f).mgmt = s.mgmt := rfl
@[simp] theorem modWin_ctl (s : State) (w : Nat) (f : LandWin → LandWin) : (s.modWin w f).ctl = s.ctl := rfl

end Sys2Proof.Laws
end

