-- ==== Sys2Proof/Laws/Issue.lean ====
section
/-! SUPPORT. What the shared shells of the meanings do when an agent issues with legal operands and no pending register:
each is its continuation on the issuing agent; and what they can answer otherwise. -/

namespace Sys2Proof.Machine

open Host

/-- A warp's shell is its continuation. -/
theorem warpOp_issues {i : Instr} {s : State} {k : Nat → Warp → ClausePos → Res} {wk : Nat} {w : Warp} {c : ClausePos}
    (hcur : s.ctl.cur = some (.warp wk)) (hw : kget s.warps wk = some w) (hc : w.clause = some c)
    (hok : opndsOk i false w.width w.held = true) (hp : s.regWait wk w (instrOpnds i false w.width) = false) :
    warpOp i s k = k wk w c := by
  simp [warpOp, onWarp, hcur, hw, hc, hok, hp]

/-- A warp's shell with an illegal operand traps. -/
theorem warpOp_illegal {i : Instr} {s : State} {k : Nat → Warp → ClausePos → Res} {wk : Nat} {w : Warp} {c : ClausePos}
    (hcur : s.ctl.cur = some (.warp wk)) (hw : kget s.warps wk = some w) (hc : w.clause = some c)
    (hok : opndsOk i false w.width w.held = false) : warpOp i s k = trapRes s cOperand c.act := by
  simp [warpOp, onWarp, hcur, hw, hc, hok]

/-- A warp's shell waits for a pending register. -/
theorem warpOp_waits {i : Instr} {s : State} {k : Nat → Warp → ClausePos → Res} {wk : Nat} {w : Warp} {c : ClausePos}
    (hcur : s.ctl.cur = some (.warp wk)) (hw : kget s.warps wk = some w) (hc : w.clause = some c)
    (hok : opndsOk i false w.width w.held = true) (hp : s.regWait wk w (instrOpnds i false w.width) = true) :
    warpOp i s k = .next s := by
  simp [warpOp, onWarp, hcur, hw, hc, hok, hp, waitRetry]

/-- In a warp the shell of a bank access is that of any instruction; a mending core traps on it. -/
theorem bankOp_warp {i : Instr} {s : State} {k : Nat → Warp → ClausePos → Res} {wk : Nat} (hcur : s.ctl.cur = some (.warp wk)) :
    bankOp i s k = warpOp i s k := by
  simp [bankOp, hcur]
theorem warpOp_mend {i : Instr} {s : State} {k : Nat → Warp → ClausePos → Res} {m : Nat} {x : Mend} {c : ClausePos}
    (hcur : s.ctl.cur = some (.mend m)) (hx : kget s.mends m = some x) (hc : x.clause = some c) :
    warpOp i s k = trapRes s cEncoding := by
  simp [warpOp, onMend, hcur, hx, hc]
theorem bankOp_mend {i : Instr} {s : State} {k : Nat → Warp → ClausePos → Res} {m : Nat} {x : Mend} {c : ClausePos}
    (hcur : s.ctl.cur = some (.mend m)) (hx : kget s.mends m = some x) (hc : x.clause = some c) :
    bankOp i s k = trapRes s cOperand := by
  simp [bankOp, onMend, hcur, hx, hc]

/-- A mending core's shell is its continuation. -/
theorem mendOp_issues {i : Instr} {s : State} {k : Nat → Mend → ClausePos → Res} {m : Nat} {x : Mend} {c : ClausePos}
    (hcur : s.ctl.cur = some (.mend m)) (hx : kget s.mends m = some x) (hc : x.clause = some c)
    (hf : mendFields i = true) (hok : opndsOk i true 1 0 = true) (hp : s.opPending (.mend m) (instrOpnds i true 1) = false) :
    mendOp i s k = k m x c := by
  simp [mendOp, onMend, hcur, hx, hc, hf, hok, hp]

/-- A mending core traps on a field that names a vector register (04 R116 step 1; 07 R193). -/
theorem mendOp_fields {i : Instr} {s : State} {k : Nat → Mend → ClausePos → Res} {m : Nat} {x : Mend} {c : ClausePos}
    (hcur : s.ctl.cur = some (.mend m)) (hx : kget s.mends m = some x) (hc : x.clause = some c) (hf : mendFields i = false) :
    mendOp i s k = trapRes s cEncoding := by
  simp [mendOp, onMend, hcur, hx, hc, hf]

/-- An agent's shell, on a warp. -/
theorem agentOp_warp {i : Instr} {s : State} {f : Nat → Warp → ClausePos → Res} {g : Nat → Mend → ClausePos → Res} {wk : Nat}
    (hcur : s.ctl.cur = some (.warp wk)) : agentOp i s f g = warpOp i s f := by
  simp [agentOp, hcur]

/-- An agent's shell, on a mending core. -/
theorem agentOp_mend {i : Instr} {s : State} {f : Nat → Warp → ClausePos → Res} {g : Nat → Mend → ClausePos → Res} {m : Nat}
    (hcur : s.ctl.cur = some (.mend m)) : agentOp i s f g = mendOp i s g := by
  simp [agentOp, hcur]

/-- A warp's shell faults when no warp issues. -/
theorem warpOp_idle {i : Instr} {s : State} {k : Nat → Warp → ClausePos → Res} (h : s.ctl.cur = none) :
    warpOp i s k = .fault .noIssuer := by
  simp [warpOp, onWarp, h]

end Sys2Proof.Machine
end

