-- ==== Sys2Proof/Tests/Slice0.lean ====
section
/-! SUPPORT. Small tests: words of the manual, ill-formed terms, single steps with results worked out from the manual, and a
witness for the hypotheses of every statement. -/

namespace Sys2Proof.Tests

open Host Sys2Proof.Machine Sys2Proof.Cert

set_option Elab.async false

/-! ### Small states -/

/-- A clause of class 1 that 16 lanes met, whose active lanes are 0, 2, 4, 5, 6 and 7; one with all 16 lanes. -/
def cl : ClausePos := { hdr := 0, next := 4, stop := 12, nexth := 12, cls := 1, act := 0x00F5, sw := false, here := 0xFFFF }
def clAll : ClausePos := { cl with act := 0xFFFF }

/-- A warp of 16 lanes of group 0 of grid 1. -/
def wp : Warp := { Warp.supervisor 0 0 with gk := gkey 1 0, width := 16, live := lanesFull 16, clause := some cl, s := [(0, 8), (2, 4)] }
def wpAll : Warp := { wp with clause := some clAll }

/-- A grid of one group of one warp, with tiles, 4,096 bytes of scratchpad and one fold; its group. -/
def gr : Grid :=
  { gridOf State.reset 0 0 ⟨0, 0, 16, 0, 2, 4096, false, false, true, false, 1⟩ none with ptroot := 0x1000, ngroups := 2, nextg := 1 }
def gp : Group := Group.fresh .run [0] [0, 1] [(0, 0), (1, 1)] [] 0 0

/-- One warp issuing; a mending core issuing. -/
def st (w : Warp) : State :=
  { State.reset with warps := [(0, w)], groups := [(gkey 1 0, gp)], grids := [(1, gr)], ctl := { Ctl.reset with cur := some (.warp 0) } }
def md : Mend := { Mend.reset with clause := some cl, halted := false, s := [(0, 8), (2, 4)] }
def stM (m : Mend) : State := { State.reset with mends := [(0, m)], grids := [(1, gr)], ctl := { Ctl.reset with cur := some (.mend 0) } }
/-- A supervisor warp issuing. -/
def sup : Warp := { Warp.supervisor 0 0 with clause := some { cl with act := 1 }, ctxsel := 1, s := [(0, 8), (2, 4)] }
def stS (w : Warp) : State :=
  { State.reset with warps := [(120, w)], groups := [(gkey 1 0, gp), (w.gk, Group.fresh .run [0] [15] [(0, 120)] [] 0 0)], grids := [(1, gr)], ctl := { Ctl.reset with cur := some (.warp 120) } }

/-- An outcome is a next state that is t. -/
def nextIs (r : Res) (t : State) : Bool :=
  match r with
  | .next u => decide (u = t)
  | _ => false

/-- Sources. -/
def v2 : VSrc := .vec 2 false
def m0 : MemOpnd := ⟨false, 4, false, false, 0, false, 0, false⟩

/-! ### Instructions with nothing in their way: the hypotheses of the statements about results -/

def scalars : List Instr :=
  [.sadd 5 2 4 (.reg 6), .ssub 0 1 3 (.imm 7), .smul 3 2 4 (.reg 6), .smad true 6 1 2 3 4, .smad false 3 2 4 6 8, .sdiv 7 2 4 (.reg 6),
   .slog 6 1 2 (.reg 0), .sshf 4 1 2 (.imm 1), .smin true 1 2 (.reg 3), .smax false 1 2 (.reg 3), .scmp 5 true 3 2 (.imm 3),
   .smov 63 (.imm 1), .ssel 3 1 2 (.reg 3), .simm 1 5, .scnt 2 1 2, .nop]
def lanes : List Instr :=
  [.vadd 31 v2 v2, .vsub 1 v2 (.scl 63), .vmul 1 v2 v2, .vdiv 1 v2 v2, .vlog 1 v2 v2, .vshf 1 v2 v2, .vmov 1 v2, .vimm 1 5,
   .vaddFx 30 v2 v2 3 true, .vsubFx 1 v2 v2 0 true, .vmulFx true 2 v2 v2 7 false, .vmulFx false 1 v2 v2 2 true, .vmad true 1 v2 v2 (.vec 4) 2 false,
   .vmad false 1 v2 v2 (.scl 4) 5 true, .vdivFx true 1 v2 v2 2, .vlogFx 5 1 v2 v2 6, .vshfFx 4 1 v2 v2 2, .vmin 1 v2 v2 2, .vmax 2 v2 v2 7,
   .vsel 7 true true 1 v2 (.vec 0 false) false, .vsel 0 false false 2 v2 v2 true, .vcnt true 1 v2 2, .vbfx 1 v2 2 31 1, .vbfi 1 v2 v2 2 0 32,
   .vcmp 5 6 v2 v2 2, .vvote 2 2 1 false, .vvote 0 1 1 true, .vshuf 3 1 v2 v2 2, .vscan 5 1 2 false 6 false true, .vscan 0 1 2 false 2 true false,
   .vred 2 1 2 false 2 false, .srdl 1 2 false,
   .vfadd 1 v2 v2, .vfmul 1 v2 v2, .vrcp 1 v2, .vrsq 1 v2, .vexp2 1 v2, .vlog2 1 v2, .vfaddFx true 2 v2 v2 3 3, .vfmulFx 1 v2 v2 0 1,
   .vfma true 1 v2 v2 (.vec 3) 2 0, .vrcpFx 1 v2 2 0, .vrsqFx 1 v2 2 0, .vexp2Fx 1 v2 2 0, .vlog2Fx 1 v2 2 0, .vscl 1 v2 v2 2 0,
   .vdot 1 v2 v2 (.vec 3) 0 0, .vsincos 1 3 v2 2 0, .vfmin 1 v2 v2 2, .vfmax 1 v2 v2 2, .vfcls 1 v2 2, .vfcmp 0 1 v2 v2 2,
   .vfcvt 1 2 false 2 10 4 0 true, .vfcvtPack 12 0 false 15 0 0 false, .vfcvtUnpack 0 30 false 15 0 false,
   .emask 0 3 0, .emask 3 0 1, .eclr true 1 2, .yield, .ebind 7 1 2, .barg 15, .bara 2, .wany 3, .exit 7 false, .rcw 3 9,
   .tfence, .sread 1 0, .sread 5 1, .csrr 0 0x010, .csrr 1 0x001, .csrw 2 0x002, .csrr 0 0x7FF, .xgrow true 6, .xgrow false 0, .seamj, .seamd,
   .fence 5 3, .cwait 255, .bra 3, .brc 0 false 3, .brv 0 false true 3, .call 1 0x20, .ret 1 false, .jmpi 1 false, .sjmp 4 0 2 0, .regrp 2 4 1]

theorem witness_runs : ∀ i ∈ scalars ++ lanes, Runs i (st wp) 0 wp cl := by unfold Runs Issues Free; decide +kernel
theorem witness_mendRuns : ∀ i ∈ scalars, MendRuns i (stM md) 0 md cl := by unfold MendRuns MendIssues MendFree; decide +kernel
theorem witness_granules : (granules 15 16 clAll.act).2 = false ∧ (granules 15 16 cl.act).2 = true := by decide +kernel
/-- Lanes 0 and 2 of the first granule of a format are active and lane 1 is not; the last granule of the width the same. -/
theorem witness_partial_granules : (0 < wp.width / granLanes 15 ∧ 0 < granLanes 15 ∧ 1 < granLanes 15 ∧ cl.act.getLsbD 0 = true ∧ cl.act.getLsbD 1 = false) ∧
    (let g := wp.width / granLanes 15 - 1
     let c := { cl with act := lanesFull 15 }
     Runs (.vfcvtPack 12 0 false 15 0 0 false) (st { wp with clause := some c }) 0 { wp with clause := some c } c ∧ g < wp.width / granLanes 15 ∧
       c.act.getLsbD (g * granLanes 15) = true ∧ c.act.getLsbD (g * granLanes 15 + (granLanes 15 - 1)) = false) ∧
    Runs (.vfcvtUnpack 0 30 false 15 0 false) (st wp) 0 wp cl ∧ Runs (.vsincos 3 3 v2 2 0) (st wp) 0 wp cl := by
  unfold Runs Issues Free; decide +kernel


/-! ### Control: codes, barriers, events, regrouping -/

/-- The state of a placed NOP, whose code has a header with TGT at offset 0, with a given warp issuing. -/
def stC (w : Warp) : State := { State.reset.withFetchWord 32 0xE0000000 with warps := [(0, w)], ctl := { Ctl.reset with cur := some (.warp 0) } }
/-- A mending core with that code. -/
def mdC : Mend := { md with code := mwrite [] 0 (placedCode 0xE0000000) }

theorem witness_branches : (stC wp).checkTargets wp [0] = .ok ∧ leads cl (0 : BitVec 25) 0 ∧ leads cl (0 : BitVec 21) 0 ∧ leads cl (0 : BitVec 20) 0 ∧
    leads cl (0 : BitVec 18) 0 ∧ leads cl (32 : BitVec 18) 128 ∧ leads cl (1 : BitVec 18) 4 ∧ (4 : Nat) % 128 ≠ 0 ∧ Runs (.bra 0) (stC wp) 0 wp cl ∧ Runs (.call 1 0) (stC wp) 0 wp cl ∧ Runs (.ret 1 false) (stC wp) 0 wp cl ∧
    (stC wp).checkTargets wp (sortNat ((lanesOf cl.act).map fun l => (wp.vget 1 l).toNat)) = .ok := by
  unfold leads target Runs Issues Free; decide +kernel
/-- The lowest and the highest destinations that are offsets of code, and the ones next to them (06 R150). -/
theorem witness_strays : (let top := { cl with hdr := 2 ^ 32 - 128 }
    leads top (31 : BitVec 25) (2 ^ 32 - 4) ∧ strays top (32 : BitVec 25) ∧ strays top (32 : BitVec 18) ∧ strays cl (-1 : BitVec 25) ∧ strays cl (-1 : BitVec 21) ∧
    strays cl (-1 : BitVec 20) ∧ strays cl (-1 : BitVec 18) ∧
    let s := st { wp with clause := some top }
    let w := { wp with clause := some top }
    Runs (.bra 32) s 0 w top ∧ Runs (.brc 0 false 32) s 0 w top ∧ Runs (.brv 0 false true 32) s 0 w top ∧ Runs (.call 1 32) s 0 w top) := by
  unfold leads strays target Runs Issues Free; decide +kernel
theorem witness_jumps : (stC wp).checkTargets wp [0] = .ok ∧ (stC wp).checkTargets wp [4] = .bad ∧ mdC.targetOk 0 = true ∧ mdC.targetOk 4 = false ∧
    Runs (.sjmp 3 1 0 0) (stC wp) 0 wp cl ∧ MendRuns (.sjmp 2 0 0 4) (stM mdC) 0 mdC cl ∧ mdC.code.wf = true ∧
    (let x : Mend := { md with code := mwrite [] 128 (placedCode 0xE0000000) }
     (∀ k, k < 1 → x.line (0 + 128 * k) 0 = 0) ∧ x.line (0 + 128 * 1) 0 ≠ 0 ∧ x.linkFrom 4 = 4 ∧ x.code.wf = true) := by
  unfold Runs Issues Free MendRuns MendIssues MendFree; decide +kernel
theorem witness_branched_lanes : regsWf wp.pcs = true ∧ 127 < 128 ∧ cl.nexth < 2 ^ 32 ∧ wp.runLanes.getLsbD 4 = true ∧ wp.pcOf 4 = cl.hdr := by
  decide +kernel
/-- Lanes 0, 2 and 4 to 7 go to 64, the other lanes of the clause's header fall to 12 (06 R150). -/
theorem test_branch_places : ((wp.branch cl 0x15 fun _ => 64).pcOf 4, (wp.branch cl 0x15 fun _ => 64).pcOf 5, (wp.branch cl 0x15 fun _ => 64).pcOf 1) =
    (64, 12, 12) := by decide +kernel

/-- An open wait of the instruction at 4. -/
def rc : OpenRcw := { addr := 4, q := 1, bound := 5, base := 0, since := 0, lanes := 0xFFFF }
theorem witness_exit_rcw : wp.live ≠ 0 ∧ kget (st wp).warps 0 = some wp ∧ (wp.rcw.getD { rc with addr := 0 }).addr = (st wp).ctl.insn.pc ∧
    (let w := { wp with rcw := some rc }; Runs (.rcw 1 5) (st w) 0 w cl ∧ rc.addr ≠ (st w).ctl.insn.pc ∧ w.live ≠ 0 ∧ w.live &&& ~~~rc.lanes = 0) ∧
    wp.live &&& ~~~(0xFF : Lanes) ≠ 0 := by
  unfold Runs Issues Free; decide +kernel

/-- The group whose two warps wait on barrier 3, one of them there. -/
def gb : Group := { gp with bars := [(3, { gen := 7, arr := 2 })] }
def stB : State := { st wp with groups := [(gkey 1 0, gb)], warps := [(0, wp), (1, { wp with ix := 1 })] }
theorem witness_barriers : kget stB.groups wp.gk = some gb ∧ (gb.bar 3).arr &&& BitVec.ofNat 256 (2 ^ wp.ix) = 0 ∧ stB.scrPending (.warp 0) = false ∧
    Runs (.barg 3) stB 0 wp cl ∧ Runs (.bara 15) stB 0 wp cl ∧
    (let g := { gp with bars := [(3, { gen := 7, arr := 1 })] }; (g.bar 3).arr &&& BitVec.ofNat 256 (2 ^ wp.ix) ≠ 0 ∧ g.expected &&& (g.bar 3).arr ≠ g.expected) ∧
    (let g := { gp with bars := [(3, { gen := 7, arr := 3 })] }; (g.bar 3).arr ≠ 0 ∧ g.expected ≠ 0 ∧ g.expected &&& (g.bar 3).arr = g.expected) := by
  unfold Runs Issues Free; decide +kernel
/-- The last arrival completes barrier 3: its generation rises and no arrival is left (02 R37). -/
theorem test_barrier_completes : (match exec (.bara 3) stB with
    | .next t => (kget t.groups wp.gk).map fun g => g.bar 3
    | _ => none) = some { gen := 8, arr := 0 } := by decide +kernel

/-- Binding 2 is barrier 3 at generation 7; it is enabled, and its handler is at 0. -/
def wb : Warp := { wp with eb := [(2, 0x2000000300000000)], emask := 4 }
theorem witness_events : ebOk (st wp) wp 0 = true ∧ ebOk (st wp) wp 0xF000000000000000 = false ∧ wp.selected 3 = [] := by decide +kernel
theorem witness_waits : Runs (.wany 4) (st wb) 0 wb cl ∧ wb.selected 4 = [] := by unfold Runs Issues Free; decide +kernel
theorem witness_wany : (let w := { wb with emask := 0 }; w.selected 4 = [2] ∧ (stC w).wanySelect 0 w 4 0 = none ∧
      (let x := { w with eb := [(2, 0x2000000300000000)], pend := 8 }
       (stC x).wanySelect 0 x 4 0 = some 2 ∧ (stC x).checkTargets x [ebHandler (x.eb64 2)] = .ok ∧ Runs (.wany 4) (stC x) 0 x cl)) := by
  unfold Runs Issues Free; decide +kernel

/-- Two warps that meet at a REGRP: warp 0 has half of its lanes, warp 1 waits there with the other half. -/
def clR : ClausePos := { cl with act := 0x00FF, here := 0x00FF }
def wr0 : Warp := { wp with live := 0x00FF, clause := some clR }
def wr1 (p : Park) : Warp := { wp with ix := 1, live := 0xFF00, clause := none, park := p }
def parked : Park := .regrp 1 2 4 12 { pc := 0, word := 0, ext := 0 }
def stR (p : Park) : State := { st wr0 with warps := [(0, wr0), (1, wr1 p)] }
/-- An issuer of a REGRP with its partner: nothing is pending, no third warp waits for the issuer, and the maps are in order. -/
theorem witness_regroup : ∀ p ∈ [Park.none, parked], Runs (.regrp 2 4 1) (stR p) 0 wr0 clR ∧
    kget (stR p).groups wr0.gk = some gp ∧ kget (stR p).grids (gkGrid wr0.gk) = some gr ∧ (2 : Nat) ≤ 4 ∧ (1 : BitVec 7) ≠ 0 ∧
    wr0.ix ^^^ 1 < gr.desc.warps ∧ (4 : Nat) < wr0.held ∧ (stR p).anyPending 0 wr0.gk = false ∧ ¬ wr0.ix ^^^ 1 < wr0.ix ∧
    (∀ x ∈ (stR p).regrpWaiters gp wr0.ix, x.1 = wr0.ix ^^^ 1) ∧ kget gp.wks (wr0.ix ^^^ 1) = some 1 ∧ kget (stR p).warps 1 = some (wr1 p) ∧
    clR.act = wr0.live ∧ wr0.ix ^^^ 1 ^^^ 1 = wr0.ix ∧ ({ pc := 0, word := 0, ext := 0 } : Insn).pc = (stR p).ctl.insn.pc ∧
    (lanesOf wr0.live).length + (lanesOf (wr1 p).live).length ≤ wr0.width ∧ (wr1 p).width = wr0.width ∧ (4 : Nat) < (wr1 p).held ∧
    gr.desc.warps ≤ wr0.ix ^^^ 2 ∧ wr0.width ≤ 128 ∧ (wr1 p).ix = wr0.ix ^^^ 1 ∧ (wr1 p).gk = wr0.gk ∧ wr0.ix ^^^ 1 < 256 ∧ wr0.ix < 256 ∧
    kget gp.wks wr0.ix = some 0 ∧ ksorted (stR p).warps = true ∧ ksorted (stR p).groups = true ∧ ksorted (stR p).cores = true ∧ ksorted gp.wks = true ∧
    ksorted gp.bars = true := by
  unfold Runs Issues Free; decide +kernel
/-- Ranges and masks that trap: an empty range, the last register that is held and the first that is not, no partner. -/
theorem witness_regroup_operands : (∀ i ∈ [Instr.regrp 5 4 1, .regrp 2 31 1, .regrp 2 32 1, .regrp 2 4 0, .regrp 2 4 2], Runs i (stR parked) 0 wr0 clR) ∧
    wr0.held = 32 ∧ (wr1 parked).held = 32 ∧ (∀ m' a' b' n i, (wr1 .none).park ≠ .regrp m' a' b' n i) ∧
    (let g := { gp with wks := [(0, 0)] }
     let s := { stR .none with groups := [(gkey 1 0, g)], warps := [(0, wr0)] }
     Runs (.regrp 2 4 1) s 0 wr0 clR ∧ kget g.wks (wr0.ix ^^^ 1) = none ∧ (∀ x ∈ s.regrpWaiters g wr0.ix, x.1 = wr0.ix ^^^ 1) ∧ s.anyPending 0 wr0.gk = false) := by
  refine ⟨by unfold Runs Issues Free; decide +kernel, by decide +kernel, by decide +kernel, by intros; simp [wr1], by unfold Runs Issues Free; decide +kernel⟩
/-- Two warps that do not meet, by each of the five ways: whom the partner names, where it stands, its width, the issuer's lanes, and the
sum of their lanes. -/
theorem witness_regroup_strangers : wr0.ix ^^^ 1 ^^^ 2 ≠ wr0.ix ∧ ({ pc := 4, word := 0, ext := 0 } : Insn).pc ≠ (stR parked).ctl.insn.pc ∧
    ({ wr1 parked with width := 8 } : Warp).width ≠ wr0.width ∧ clR.act ≠ ({ wr0 with live := 0x01FF } : Warp).live ∧
    wr0.width < (lanesOf wr0.live).length + (lanesOf ({ wr1 parked with live := 0xFF80 } : Warp).live).length ∧
    ∀ o ∈ [wr1 (.regrp 2 2 4 12 { pc := 0, word := 0, ext := 0 }), wr1 (.regrp 1 2 4 12 { pc := 4, word := 0, ext := 0 }), { wr1 parked with width := 8 },
        { wr1 parked with live := 0xFF80 }],
      (let s := { stR parked with warps := [(0, wr0), (1, o)] }
       Runs (.regrp 2 4 1) s 0 wr0 clR ∧ s.anyPending 0 wr0.gk = false ∧ (∀ x ∈ s.regrpWaiters gp wr0.ix, x.1 = wr0.ix ^^^ 1)) := by
  unfold Runs Issues Free; decide +kernel
/-- Warp 2 waits for warp 0, whose REGRP names warp 1. -/
def gr4 : Grid := { gr with desc := { gr.desc with warps := 4 } }
def gp4 : Group := { gp with wks := [(0, 0), (1, 1), (2, 2)] }
def stR4 : State :=
  { stR .none with grids := [(1, gr4)], groups := [(gkey 1 0, gp4)],
                   warps := [(0, wr0), (1, wr1 .none), (2, { wr1 (.regrp 2 2 4 12 { pc := 8, word := 0, ext := 0 }) with ix := 2 })] }
theorem witness_regroup_third : Runs (.regrp 2 4 1) stR4 0 wr0 clR ∧ wr0.ix ^^^ 1 < gr4.desc.warps ∧ stR4.anyPending 0 wr0.gk = false ∧ clR.act = wr0.live ∧
    (stR4.regrpWaiters gp4 wr0.ix).map (fun y => (y.1, y.2.1, y.2.2.1)) = [(2, 2, 0xFF00)] ∧ kget gp4.wks (wr0.ix ^^^ 1) = some 1 := by
  unfold Runs Issues Free; decide +kernel
/-- With a partner that has not come, the issuer parks (02 R43). -/
theorem test_regrp_parks : (match exec (.regrp 2 4 1) (stR .none) with
    | .next t => (kget t.warps 0).map (·.park)
    | _ => none) = some (.regrp 1 2 4 12 (stR .none).ctl.insn) := by decide +kernel
/-- Fused, the first warp has 16 live lanes and the second is gone (02 R43, R44). -/
theorem test_regrp_fuses : (match exec (.regrp 2 4 1) (stR parked) with
    | .next t => some ((kget t.warps 0).map (·.live), (kget t.warps 1).map (·.live))
    | _ => none) = some (some 0xFFFF, none) := by decide +kernel

/-! ### Accesses -/

/-- The address 0x40 in page 0 of the placed tables, and in scratchpad. -/
def wa : Warp := { wp with s := [(4, 0x40), (6, 0x40), (8, 3)] }
def accs : List Instr := [.ld 8 2 m0 (-1) 2 7, .ldb 8 0 m0 0 0 1, .st 8 1 m0 1 2 none, .pref 0 m0 0 2, .sld 10 4 true 1 (-1), .sst 10 4 false 1,
  .atom 7 0 m0 12 3 0 2 true false none]
theorem witness_accesses : (∀ i ∈ accs, Runs i (stC wa) 0 wa cl) ∧
    AccessFree (stC wa) 0 wa ((stC wa).warpAcc 0 wa cl .store (accElems [0, 7] 1 4 8 (fun _ => 0x40) noData) (some 7)) 4 (fun _ => 0x40) := by
  unfold Runs Issues Free AccessFree; decide +kernel
def banks : List Instr := [.lds 8 0 false 0 m0 0 2 1, .sts 8 1 false 1 m0 0 2 none, .atoms 7 8 m0 10 2 true 0 false 1]
theorem witness_banks : (∀ i ∈ banks, Runs i (stC wa) 0 wa cl) ∧ (stC wa).acqPending (.warp 0) = false ∧ slotFull wa (some 1) = false ∧
    (stC wa).bankCheck wa false 0 4092 = .ok (.scr wa.gk 4092 0) ∧ (stC wa).bankCheck wa false 0 4096 = .prot ∧
    hasRel 0 = false ∧ (stC wa).release (.warp 0) 2 ((stC wa).paired wa.gk) = (stC wa, true) ∧ (stC wa).hostMarked wa.gk = false := by
  unfold Runs Issues Free; decide +kernel
/-- A store 4 past the end of the scratchpad traps with PROTECTION (03 R87; 15 Table 15-1). -/
theorem test_scratch_end : ((stC wa).bankCheck wa false 0 4095, (stC wa).bankCheck wa false 0 4096) = (.ok (.scr wa.gk 4095 0), .prot) := by
  decide +kernel

/-- A mending core that addresses its own SRAM, and local memory. -/
def ma : Mend := { md with s := [(4, 0x40), (5, 0xF8000000), (6, 0x40), (7, 0x08000000), (8, 3)] }
def maccs : List Instr := [.ld 8 0 m0 0 2 1, .ldb 8 0 m0 0 2 1, .st 8 0 m0 0 2 none, .sld 10 4 true 1 0, .sst 10 4 false 0,
  .atom 0 0 m0 10 2 0 2 true true none, .pref 0 m0 0 2, .fence 3 3, .wadr 10 0 m0 0 2 none, .wadr 10 0 m0 0 2 (some 1), .tfence, .sread 1 6,
  .csrr 1 0, .csrr 2 0x024, .demnext 1, .csrw 2 0x022, .csrw 2 0x024, .csrw 2 0x025, .pginvPage 4 none, .pginvCtx none,
  .leaseopRd 8 1 1, .leaseopWr 1 8 none, .halt]
theorem witness_mend_accesses : (∀ i ∈ maccs, MendRuns i (stM ma) 0 ma cl) ∧ (∃ p, (stM ma).mendPlace 0 ma 0 0xF800000000000040 = .inl p) ∧
    mendSpace 0 0xF800000000000040 ≠ .bad ∧ (stM ma).acqPending (.mend 0) = false := by
  refine ⟨by unfold MendRuns MendIssues MendFree; decide +kernel, ⟨_, rfl⟩, by decide +kernel, by decide +kernel⟩

/-! ### Asynchronous operations, folds, tiles -/

/-- Sources and counts: s4:5 is 0x40, s6:7 is 0x10000, s8 is 16, s10 is 1; the warp has a gathered index buffer of two entries. -/
def wf : Warp := { wp with s := [(4, 0x40), (6, 0x10000), (8, 16), (10, 1)], ibufs := [{ op := 9, ty := 6, n := 2, vals := [0, 1], full := true, own := true }] }
/-- A record read that has returned: eight doublewords of zeros but the first. -/
def rec (x : Nat) : Op :=
  { (stC wf).warpAcc 0 wf cl .recRd [] none with
    elems := (List.range 8).map fun i => { Elem.known 0 8 0 (if i = 0 then BitVec.ofNat 64 x else 0) with done := true } }
def stRec (x : Nat) : State := { stC wf with ops := [(5, rec x)] }
def asyncs : List Instr := [.cpx 4 8 12, .cgatIdx 4 10 6, .cgatRow 6 4 8 10 0 0, .csct 6 4 8 10 0 0, .cred 0 6 4 10 2 0 0, .cseal true false 6 6, .cwait 0,
  .lnopen 4 6 12 10, .lnopenClose 4, .turn 4 none, .pfoldInstall 10, .pfoldFetch 10 8 10, .pfoldRelease 10 8 10, .foldx 10, .landarm 10]
theorem witness_copies : (∀ i ∈ asyncs, Runs i (stC wf) 0 wf cl) ∧ AsyncFree (stC wf) 0 ∧ (spair wf.s 4).toNat % 64 = 0 ∧ NoRecord (stC wf) 0 ∧
    protElems ((stC wf).openElems (recordOp (stC wf) 0 wf cl (spair wf.s 4).toNat)) = [] ∧
    (sreg wf.s 10).toNat ≠ 0 ∧ ((stC wf).liveBufs 0 wf).length < Config.indexBuffers ∧ wf.latestBuf ≠ none ∧ (sreg wf.s 8).toNat % 16 = 0 ∧
    sideFault (stC wf) wf cl [(sideOf 0 0, rangeWords (spair wf.s 6).toNat 32)] = none := by
  unfold Runs Issues Free AsyncFree NoRecord; decide +kernel
/-- A layout record of one element of four bytes, no dimension: it is well formed and out of nothing. -/
theorem witness_layout : HasRecord (stRec 0x40) 0 5 0x40 ∧ layOk 0x40 = true ∧ (layOob 0x40 = true ∨ layAnyOut 0x40 [] = false) ∧
    sideFault (took (stRec 0x40) 5) wf cl [] = none := by
  refine ⟨⟨rec 0x40, by decide +kernel, by decide +kernel, by decide +kernel⟩, by decide +kernel, by decide +kernel, by decide +kernel⟩
theorem witness_seals : wf.sealed.length < Config.maxBatches ∧ (spair wf.s 6).toNat % 8 = 0 ∧ wf.sealed.length ≤ (0 : Byte).toNat ∧
    (0 : Byte).toNat < ({ wf with sealed := [{ seq := 0, cw := none }] } : Warp).sealed.length := by decide +kernel

/-- Front page 0, back page 1, record at 0x40; the lining they make. -/
def wl : Warp := { wp with s := [(4, 0x40), (10, 1), (12, 0x10000)] }
def ln (side : Bool) : Lining := { home := 0x10040, carve := false, front := 0x20000, back := 0x30000, npages := 1, side := side, turns := 0, pressed := false, group := wl.gk }
def grC : Grid := (kget (stC wl).grids 1).getD gr
def stL (side : Bool) : State := { stC wl with grids := [(1, { grC with linings := [(0x40, ln side)] })] }
theorem witness_linings : Runs (.lnopen 4 6 12 10) (stC wl) 0 wl cl ∧ AsyncFree (stC wl) 0 ∧ kget (stC wl).grids wl.ctx = some grC ∧
    overlap 0 65536 0x10000 65536 = false ∧ grC.liningHits 0 65536 = false ∧ grC.linings.length < Config.maxLinings ∧ kget grC.linings 0x40 = none ∧
    (stC wl).liningAt false 0x10040 = none ∧ (stC wl).check wl.ctx 0 false 0 = .ok (.loc 0x10000 .loc) 0x4000F false := by
  unfold Runs Issues Free AsyncFree; decide +kernel
theorem witness_lining_home : LineHome (stC wl) wl 0x40 false 0x10040 ∧ RecReady (stC wl) false 0x10040 ∧
    ((stC wl).walkGate wl.ctx [0]).2 = true ∧ (stC wl).recForward false 0x10040 = none ∧
    (let s := { stC wl with mem := { (stC wl).mem with fwds := [{ page := 1, peer := 3, topg := 9 }] } }
     s.recForward false 0x10040 = some { page := 1, peer := 3, topg := 9 }) :=
  ⟨⟨by decide +kernel, .loc 0x10040 .loc, 0x4000F, false, by decide +kernel, by decide +kernel, by decide +kernel, by decide +kernel⟩,
   by unfold RecReady; decide +kernel, by decide +kernel, by decide +kernel, by decide +kernel⟩
theorem witness_lining_turns : ∀ side, LineHome (stL side) wl 0x40 false 0x10040 ∧ (stL side).liningAt false 0x10040 = some (wl.ctx, 0x40, ln side) ∧
    AsyncFree (stL side) 0 ∧ (stL side).asyncOps 0 = [] ∧ Runs (.lnopenClose 4) (stL side) 0 wl cl ∧ Runs (.turn 4 (some 7)) (stL side) 0 wl cl ∧
    slotFull wl (some 7) = false ∧ (ln side).side = side ∧ RecReady (stL side) false 0x10040 ∧
    (stL side).lacksWriter wl.ctx { ln side with pressed := true } = none := by
  intro side
  refine ⟨⟨by cases side <;> decide +kernel, .loc 0x10040 .loc, 0x4000F, false, by cases side <;> decide +kernel, by decide +kernel, by decide +kernel,
    by decide +kernel⟩, ?_⟩
  unfold RecReady Runs Issues Free AsyncFree; cases side <;> decide +kernel

/-- A context of 4,095 folds of which number 4,095 is installed. -/
def grF : Grid := { grC with foldbase := 0xFFF, folds := [(4095, { count := 0, k := 0, bits := 0 })] }
def wfo : Warp := { wp with s := [(8, 63), (10, 4095)] }
def stF : State := { stC wfo with grids := [(1, grF)] }
theorem witness_folds : stF.acqPending (.warp 0) = false ∧ kget stF.grids wfo.ctx = some grF ∧ grF.foldOk ((sreg wfo.s 10).toNat % 4096) = true ∧
    kget grF.folds 4095 = some { count := 0, k := 0, bits := 0 } ∧ foldReserved 0 = false ∧ NoRecord stF 0 ∧
    (∀ i ∈ [Instr.pfoldInstall 10, .pfoldFetch 10 8 8, .pfoldRelease 10 8 8, .foldx 10, .landarm 8, .landarm 10], Runs i stF 0 wfo cl) := by
  unfold Runs Issues Free NoRecord; decide +kernel
theorem witness_landing : (let s := { stF with land := { stF.land with wins := [(63, { LandWin.reset with en := true })] } }
    (sreg wfo.s 8).toNat < 64 ∧ (s.win 63).en = true ∧ (s.win 63).ctx = none) ∧ 64 ≤ (sreg wfo.s 10).toNat := by decide +kernel

/-! ### Tiles -/

/-- The group with tiles 1 and 2 tagged as BF16 operands and tile 3 as FP32 accumulator; a warp with every lane active. -/
def gt : Group := ((gp.setItag 1 0x81).setItag 2 0x81).setItag 3 0xA2
def wt : Warp := { wpAll with s := [(4, 0x40), (6, 32)] }
def stT (w : Warp) : State := { stC w with groups := [(gkey 1 0, gt)] }
def mats : List Instr := [.tld 15 4 6 false 1 127 false false (some 7), .tst 3 4 6 63 none, .tzero 15 2, .tcvt 4 3 9 0 0 false none,
  .tmovVt 5 2 false 8 1 1 false false false false none, .tmovTv 16 3 8 4 false 1, .mma 3 1 2 3 false false none, .mmas 4 1 2 0 false true (some 0)]
theorem witness_tiles : (∀ i ∈ mats, Runs i (stT wt) 0 wt clAll) ∧ QueueFree (stT wt) 0 wt clAll gt true (some 7) ∧
    (gt.itag 3).getLsbD 7 = true ∧ gt.itag 3 = 0xA2 := by
  unfold Runs Issues Free QueueFree; decide +kernel
theorem witness_pairs : pairs (gt.itag 1) (gt.itag 2) (gt.itag 3) false false ∧ ¬ pairs (gt.itag 1) (gt.itag 3) (gt.itag 3) false false := by
  unfold pairs; decide +kernel
theorem witness_tile_traps : QueueFree (stT wp) 0 wp cl gt false none ∧ cl.act ≠ lanesFull wp.width ∧
    (let s := { stT wp with grids := [(1, { gr with desc := { gr.desc with tile := false } })] }
     kget s.groups wp.gk = some gt ∧ s.holdsTiles wp.gk = false ∧ Runs (.tzero 0 1) s 0 wp cl) := by
  unfold Runs Issues Free QueueFree; decide +kernel
/-- Every form of the class issues in a group without tiles. -/
theorem witness_no_tiles : (let s := { stT wt with grids := [(1, { gr with desc := { gr.desc with tile := false } })] }
    (∀ i ∈ mats, Runs i s 0 wt clAll) ∧ kget s.groups wt.gk = some gt ∧ s.holdsTiles wt.gk = false) := by unfold Runs Issues Free; decide +kernel
/-- Operands and tags that each form does not take, next to ones that it takes. -/
theorem witness_matrix_operands : (∀ i ∈ [Instr.tld 15 4 6 false 3 64 false true none, .tld 15 4 6 false 3 63 false true none, .tst 3 4 6 63 none, .tst 4 4 6 63 none, .tcvt 3 3 9 0 0 false none,
      .tcvt 4 3 9 0 80 false none, .tcvt 4 3 9 0 81 false none, .tcvt 4 3 8 0 3 false none, .tcvt 4 1 9 0 0 false none, .tmovVt 5 2 false 6 1 1 true false false false none, .tmovTv 16 3 6 4 true 1,
      .mma 3 3 2 3 false false none, .mmas 3 1 3 3 false false (some 7), .mma 4 1 3 3 false false none],
      Runs i (stT wt) 0 wt clAll ∧ Runs i (stT wp) 0 wp cl) ∧
    QueueFree (stT wt) 0 wt clAll gt false none ∧ QueueFree (stT wp) 0 wp cl gt false none ∧ QueueFree (stT wp) 0 wp cl gt false (some 1) ∧ (63 : BitVec 7).toNat + 1 = 64 ∧
    (gt.itag 4).getLsbD 7 = false ∧ (gt.itag 3).getLsbD 7 = true ∧
    (let g := gt.setItag 3 0xA3; (g.itag 3).getLsbD 5 = true ∧ (g.itag 3).toNat % 16 = 3 ∧ 64 < (64 : BitVec 7).toNat + 1) ∧
    8 * (80 : Byte).toNat + 128 ≤ tfK 9 ∧ ¬ 8 * (81 : Byte).toNat + 128 ≤ tfK 9 ∧ tfScaled 8 = true ∧ 8 * (3 : Byte).toNat % 24 = 0 ∧ 8 * (1 : Byte).toNat % 24 ≠ 0 ∧
    gt.itag 1 ≠ 0xA2 ∧ (sreg wt.s 6).toNat + 2 ^ 1 * wt.width ≤ 1024 ∧
    ¬ 1024 < (992 : Word).toNat + 2 ^ 1 * wt.width ∧ 1024 < (993 : Word).toNat + 2 ^ 1 * wt.width := by
  unfold Runs Issues Free QueueFree; decide +kernel
theorem witness_zero_rows : (Tile.empty.val 0 0).isZero = true := by decide +kernel

/-! ### Special registers, messages, privilege, traps -/

theorem witness_special : (st wp).flagWaits 0 wp.gk = false ∧ wp.aflags &&& wp.aenab &&& 0x3F = 0 ∧
    (let w := { wp with aflags := 3, aenab := 2 }; Runs .tfence (st w) 0 w cl ∧ (st w).flagWaits 0 w.gk = false ∧ w.aflags &&& w.aenab &&& 0x3F ≠ 0) ∧
    (∀ i ∈ [Instr.sread 1 0, .sread 63 1, .sread 1 2, .sread 1 3, .sread 1 4, .sread 1 5, .sread 1 6, .sread 1 7], Runs i (st wp) 0 wp cl) := by
  unfold Runs Issues Free; decide +kernel
/-- Selectors that do not exist, in a warp and on a mending core; CSRs of a context where CTXSEL names none. -/
theorem witness_no_such_register : (∀ i ∈ [Instr.sread 1 8, .sread 1 15], Runs i (st wp) 0 wp cl) ∧
    (∀ i ∈ [Instr.sread 2 0, .sread 2 4, .sread 2 7, .sread 2 15], (stM md).opPending (.mend 0) (instrOpnds i true 1) = false) ∧
    (∀ i ∈ [Instr.csrr 2 0x014, .csrw 2 0x7FF, .csrr 2 0x010, .csrw 2 0x012], MendRuns i (stM { md with ctxsel := 9 }) 0 { md with ctxsel := 9 } cl) ∧
    (stM md).ctxLive 9 = false ∧
    (let w := { sup with ctxsel := 9 }
     isSup 120 = true ∧ (stS w).ctxLive w.ctxsel.toNat = false ∧ ∀ i ∈ [Instr.csrr 2 0x010, .csrw 2 0x011, .csrr 2 0x012], Runs i (stS w) 120 w { cl with act := 1 }) := by
  unfold Runs Issues Free MendRuns MendIssues MendFree; decide +kernel
theorem witness_control : isSup 120 = true ∧ isSup 0 = false ∧ (stS sup).csrCtx 120 sup = some 1 ∧
    ((stS sup).csrCtx 120 sup).bind (kget (stS sup).grids) = some gr ∧ ((st wp).csrCtx 0 wp).bind (kget (st wp).grids) = some gr ∧
    (∀ i ∈ [Instr.csrr 2 0x013, .csrw 2 0x010, .csrw 2 0x011, .csrw 2 0x012, .csrw 2 0x013], Runs i (stS sup) 120 sup { cl with act := 1 }) ∧
    (∀ i ∈ [Instr.csrr 2 0x014, .csrw 2 0x7FF, .csrr 2 0x010, .csrw 2 0x000], Runs i (st wp) 0 wp cl) := by
  unfold Runs Issues Free; decide +kernel
/-- A CSRR of a number that Table 7-9 does not define traps with ILLEGAL_OPERAND, whose code is 2 (07 Table 7-9; 15 Table 15-1). -/
theorem test_csrr_unknown : nextIs (exec (.csrr 2 0x014) (st wp)) ((st wp).trapCur 2 cl.act) = true := by decide +kernel
def mdq : Mend := { md with ctxsel := 1, dem := [(1023, { ctx := 1, page := 0, reason := 1, kind := 0, va := 0, ret := false, seq := 5 })] }
theorem witness_mend_control : (stM mdq).ctxLive mdq.ctxsel.toNat = true ∧ kget (stM mdq).grids mdq.ctxsel.toNat = some gr ∧ mdq.nextDem = some 1023 ∧
    (∀ e ∈ md.dem, e.2.ret = true) ∧ MendRuns (.demnext 1) (stM mdq) 0 mdq cl ∧ MendRuns (.csrw 2 0x010) (stM mdq) 0 mdq cl ∧
    MendRuns (.csrr 2 0x011) (stM mdq) 0 mdq cl := by
  unfold MendRuns MendIssues MendFree; decide +kernel

/-- A message to core 3, slot 15, position 7. -/
def wm : Warp := { wp with s := [(16, 0x7F03), (17, 0x8000)] }
def msg (tgt : Nat) : Msg := { status := 1, tgt := tgt, words := List.replicate 16 7 }
def stMsg (w : Warp) (l : List Msg) : State := { st w with cores := [(0, { Machine.Core.reset with mbox := l })] }
theorem witness_messages : Runs (.mbxSend 16 32 (some 7)) (st wm) 0 wm cl ∧ (sreg wm.s 16).toNat < 2 ^ 15 ∧ Runs (.mbxSend 17 32 none) (st wm) 0 wm cl ∧
    2 ^ 15 ≤ (sreg wm.s 17).toNat ∧ Runs (.mbxRecv 16 1 0) (stMsg wp []) 0 wp cl ∧ (∀ m ∈ [msg 3], m.tgt ≠ 0 % 128) ∧
    ((stMsg wp [msg 3, msg 0, msg 5]).core (wkCore 0)).mbox = [msg 3] ++ msg 0 :: [msg 5] ∧ Runs (.svreq 8 2047) (st wp) 0 wp cl := by
  unfold Runs Issues Free; decide +kernel
theorem witness_blocks : wp.x + (6 : BitVec 3).toNat ≤ 6 ∧ wp.xpend = 0 ∧ (∀ r ∈ ((st wp).core (wkCore 0)).xq, r.quad ≠ slotQuad (wkSlot 0)) ∧
    (st wp).blocksFit (wkCore 0) 0 0 6 = true ∧ 6 < wp.x + (7 : BitVec 3).toNat ∧
    (let s := { st wp with cores := [(0, { Machine.Core.reset with xq := [{ quad := 0, wk := 1, k := 6, nb := false }] })] }
     ¬ ((∀ r ∈ (s.core (wkCore 0)).xq, r.quad ≠ slotQuad (wkSlot 0)) ∧ s.blocksFit (wkCore 0) 0 0 1 = true)) ∧
    (let w := { wp with x := 6 }
     Runs (.xdrop 6) (st w) 0 w cl ∧ (st w).regWait 0 w [{ vec := true, first := 32, n := 96, align := 1 }] = false) ∧ (st wp).seamOf wp.gk = none ∧
    (let w := { wp with joined := true }; Runs .seamd (st w) 0 w cl ∧ (st w).seamPending 0 = false) ∧ wp.joined = false := by
  unfold Runs Issues Free; decide +kernel
/-- Drops of no block, of one more than are held, and while a request waits; the numbers of leases at the end of the table. -/
theorem witness_refused_operands : (∀ i ∈ [Instr.xdrop 0, .xdrop 1], Runs i (st wp) 0 wp cl) ∧ wp.x < (1 : BitVec 3).toNat ∧
    (let w := { wp with x := 6, xpend := 1 }; Runs (.xdrop 1) (st w) 0 w cl ∧ w.xpend ≠ 0) ∧
    (∀ e ∈ [(32767, true), (32768, false)], (let w := { sup with s := [(1, BitVec.ofNat 32 e.1)] }
      (∀ i ∈ [Instr.leaseopRd 8 1 7, .leaseopWr 1 8 none], Runs i (stS w) 120 w { cl with act := 1 }) ∧ decide ((sreg w.s 1).toNat < 32768) = e.2)) ∧
    (∀ e ∈ [(32767, true), (32768, false)], (let x := { mdq with s := [(1, BitVec.ofNat 32 e.1)] }
      (∀ i ∈ [Instr.leaseopRd 8 1 7, .leaseopWr 1 8 none], MendRuns i (stM x) 0 x cl) ∧ decide ((sreg x.s 1).toNat < 32768) = e.2)) := by
  unfold Runs Issues Free MendRuns MendIssues MendFree; decide +kernel
theorem witness_privileged : Issues (st wp) 0 wp cl ∧ (stS sup).ctxLive sup.ctxsel.toNat = true ∧ slotFull sup (some 7) = false ∧
    (∀ i ∈ [Instr.pginvPage 4 none, .pginvCtx (some 7), .leaseopRd 8 1 7, .leaseopWr 1 8 none, .halt], Runs i (stS sup) 120 sup { cl with act := 1 }) ∧
    (stM mdq).sentUnder (stM mdq).opNo 1 none = false ∧ 32768 ≤ (sreg ({ sup with s := [(1, 32768)] } : Warp).s 1).toNat := by
  unfold Runs Issues Free; decide +kernel
theorem witness_traps : wp.handler = false ∧ kget (st wp).grids (gkGrid wp.gk) = some gr ∧ gr.killed = none ∧ ((st wp).core (wkCore 0)).traps.length < 64 ∧
    ({ gr with killed := some 0x102 } : Grid).killed ≠ none ∧ md.sram.wf = true ∧ md.halted = false ∧ Mend.reset.halted = true := by decide +kernel
/-- With 63 records the last place is taken, with 64 the record is lost and counted; SEQ rises both times. -/
theorem witness_trap_room : (∀ n ∈ [63, 64], (let s := { st wp with cores := [(0, { Machine.Core.reset with traps := List.replicate n [], drops := 5 })] }
    let t := s.takeTrap 0 (TrapInfo.plain 2 cl.act { pc := 8, word := 9, ext := 0 })
    s.ctl.traps = none ∧ ((t.core 0).traps.length, (t.core 0).drops, (t.part 0).seq) = (64, if n = 63 then 0 else 6, 1) ∧
      (n = 63 → ((t.core 0).traps.getD 63 []).getD 5 0 = 0x50001))) := by decide +kernel
/-- A trap of warp 0 of group 0 of grid 1 with cause 2: its record starts with the grid and the group, and names the cause (15 Table 15-2). -/
theorem test_trap_record : ((((st wp).takeTrap 0 (TrapInfo.plain 2 cl.act { pc := 8, word := 9, ext := 0 })).core 0).traps.headD []).take 4 =
    [1, 0, 0, 0x02000000] := by decide +kernel

/-! ### Events: hypotheses that are met, and what follows -/

/-- The state that an outcome goes on to. -/
def nextOf (r : Res) (s : State) : State :=
  match r with
  | .next t => t
  | _ => s

theorem witness_windows : (st wp).readyIn 0 0 = [0] ∧ (stM md).mends = [(0, md)] ∧ md.halted = false ∧
    (st wp).grantOrder 0 0 = [(0, false), (1, false), (2, false), (3, false)] ∧
    ({ stS sup with ctl := { Ctl.reset with choices := [1] } } : State).grantOrder 0 3 =
      [(15, true), (12, false), (13, false), (14, false), (15, false)] ∧
    (∀ y ∈ [12, 13, 14], (stS sup).readyIn 0 y = []) ∧ (stS sup).readyIn 0 15 = [120] ∧
    (let t := nextOf (exec (.windowGrant (.quad 0 3) 5) (stS sup)) (stS sup)
     t.ctl.issue = [.warp 120] ∧ t.ctl.grant = some { core := 0, quad := 3, slot := 15, oot := false, rest := [] } ∧ (t.core 0).cycles = 5) := by
  decide +kernel
def wcg : Warp := { wp with yield := true }
def gnt (oot : Bool) : Grant := { core := 0, quad := 0, slot := 1, oot := oot, rest := [(2, false)] }
def stCg (o : Bool) : State := { st wcg with ctl := { Ctl.reset with cur := some (.warp 0), grant := some (gnt o) } }
theorem witness_count_grant : (stCg false).hasIssued (stCg false) 0 = false ∧ ({ st wp with warps := [] } : State).hasIssued (stCg false) 0 = true ∧
    (∀ o, (stCg o).ctl.cur = some (.warp 0) ∧ (stCg o).ctl.grant = some (gnt o) ∧ ((st { wcg with x := 6 }).hasIssued (stCg o) 0 = true)) ∧
    (let u := (st { wcg with x := 6 }).countGrant (stCg false)
     kget (u.core 0).ptrs 0 = some 1 ∧ (kget u.warps 0).map (fun w => (w.x, w.yield)) = some (6, false)) ∧
    ({ stCg false with ctl := { (stCg false).ctl with issue := [] } } : State).nextWindow.ctl.grant = none := by decide +kernel
def wrc : Warp := { wp with clause := none, rcw := some { rc with bound := 5, since := 0, lanes := 0x00FF } }
def stRc (c : Nat) : State := { st wrc with cores := [(0, { Machine.Core.reset with cycles := c })] }
theorem witness_rcw_timeout : wrc.rcw = some { rc with bound := 5, since := 0, lanes := 0x00FF } ∧ (5 : Nat) ≤ 0 + (((stRc 5).core 0).cycles - 0) ∧
    (stRc 5).groupIssues wrc = true ∧ nextIs (exec (.rcwTimeout 0) (stRc 4)) (stRc 4) = true ∧
    nextIs (exec (.rcwTimeout 0) (stRc 5)) ((stRc 5).setWarp 0 (wrc.rcwEnd { rc with bound := 5, since := 0, lanes := 0x00FF } false)) = true := by
  decide +kernel
/-- A WANY parked for its timeout binding of 9 cycles. -/
def wwy : Warp := { wp with clause := none, eb := [(7, 0xA000000900000000)], park := .wany 0x80 0x0F 2 0 { pc := 0, word := 0, ext := 0 } }
def stWy : State := { stC wwy with cores := [(0, { Machine.Core.reset with cycles := 7 })] }
theorem witness_wany_timeout : wwy.hold = none ∧ stWy.groupIssues wwy = true ∧ stWy.wanySelect 0 wwy 0x80 9 = some 7 ∧
    stWy.checkTarget wwy (ebHandler (wwy.eb64 7)) = .ok ∧ wwy.selected 0x80 = [7] ∧ ebKind (wwy.eb64 7) = 5 ∧ ebSel (wwy.eb64 7) ≤ 9 ∧
    stWy.ebValue 0 wwy (wwy.eb64 7) 9 = 9 ∧ wwy.won = none ∧
    (let s1 := (stWy.setWarp 0 { wwy with won := some (7, 9) }).begin (.warp 0) { pc := 0, word := 0, ext := 0 }
     s1.checkTarget { wwy with won := some (7, 9) } (ebHandler (wwy.eb64 7)) = .ok ∧
     nextIs (exec (.wanyTimeout 0) stWy) (s1.setWarp 0 (wwy.wanyGo 7 0x0F 9)) = true ∧ nextIs (exec (.wanyResume 0) stWy) (s1.setWarp 0 (wwy.wanyGo 7 0x0F 9)) = true) ∧
    (let x := { wwy with won := some (7, 9) }
     let s := { stWy with warps := [(0, x)] }
     (s.begin (.warp 0) { pc := 0, word := 0, ext := 0 }).checkTarget x (ebHandler (x.eb64 7)) = .ok ∧ s.groupIssues x = true ∧ x.hold = none) := by
  decide +kernel
/-- Cycles that pass with the next window end a wait whose bound they exceed, and no other; a core without a parked WANY keeps its warps. -/
theorem witness_rcw_expires : (let r := { rc with bound := 5, since := 0, lanes := 0x00FF }
    ksorted (stRc 6).warps = true ∧ kget (stRc 6).warps 0 = some wrc ∧ wkCore 0 = 0 ∧ r.bound ≠ 0 ∧ r.bound < r.base + (((stRc 6).core 0).cycles - r.since) ∧
    ¬ r.bound < r.base + (((stRc 5).core 0).cycles - r.since) ∧ (stRc 6).groupIssues wrc = true ∧ kget ((stRc 6).rcwExpire 0).warps 0 = some (wrc.rcwEnd r false) ∧
    kget ((stRc 5).rcwExpire 0).warps 0 = some wrc ∧ (∀ x ∈ (stRc 6).warps, x.2.inWany = false)) := by decide +kernel
def xr (q k : Nat) (nb : Bool) : XReq := { quad := q, wk := 0, k := k, nb := nb }
def stX (nb : Bool) : State :=
  { st { wp with park := if nb then .none else .xgrow 6, xpend := if nb then 6 else 0 } with
    cores := [(0, { Machine.Core.reset with xq := [xr 1 2 false, xr 0 6 nb] })] }
theorem witness_grants : ∀ nb, ((stX nb).core 0).xq = [xr 1 2 false] ++ xr 0 6 nb :: [] ∧ (stX nb).blocksFit 0 0 0 6 = true ∧
    ((kget (nextOf (exec (.registerGrant 0 0) (stX nb)) (stX nb)).warps 0).map fun w => (w.x, w.xpend, w.park == .none, w.pend)) =
      some (6, 0, true, if nb then 0x20000 else 0) := by decide +kernel

/-- A load of one element that is at home: its value is 9 for register v8 of lane 0. -/
def opLd : Op :=
  { (stC wp).warpAcc 0 wp cl (.load false 2 true) [{ Elem.known 0 4 8 9 with done := true }] (some 1) with hold := [] }
def stLd : State := { stC { wp with sb := [(1, 1)] } with ops := [(4, opLd)] }
theorem witness_landing_results : opLd.isAcc = true ∧ (Acc.load false 2 true).dest = some true ∧ (∀ e ∈ opLd.elems, e.done = true) ∧ opLd.hold = [] ∧
    opLd.want = [] ∧ stLd.acqEarly 4 opLd = false ∧ opLd.acqScope = none ∧ (∀ x ∈ stLd.ops, x.1 ≠ 4 → x.2.who ≠ .warp 0) ∧ ksorted stLd.ops = true ∧
    (let t := nextOf (exec (.registerResultLanding 4 none) stLd) stLd
     t.ops = [] ∧ (kget t.warps 0).map (fun w => (w.vget 8 0, w.sb)) = some (9, [])) := by decide +kernel
def bt (cw : Option ComplWord) : Warp := { wp with sealed := [{ seq := 0, cw := cw }, { seq := 1, cw := none }] }
def cwd : ComplWord := { addr := 8, val := 1, add := true, insn := { pc := 0, word := 0, ext := 0 } }
theorem witness_batches : (stC (bt none)).batchOps 0 0 = false ∧
    nextIs (exec (.batchFinish 0) (stC (bt none))) (((stC (bt none)).setWarp 0 { bt none with sealed := [{ seq := 1, cw := none }] }).tryRetire 0) = true ∧
    (let u := { stC { bt none with sealed := [{ seq := 1, cw := none }, { seq := 0, cw := some cwd }] } with ops := [(2, cwOp 0 wp { seq := 1, cw := none } cwd)] }
     u.batchOps 0 1 = true ∧ u.batchOps 0 0 = false ∧ (nextOf (exec (.batchFinish 0) u) (stC wp)).ops.length = 2) ∧
    (bt (some cwd)).handler = false ∧ (nextOf (exec (.batchFinish 0) (stC (bt (some cwd)))) (stC wp)).ops.length = 1 := by decide +kernel
def snd (tgt : Nat) : Send := { from_ := tgt, gk := 0, ix := tgt, core := 0, msg := msg tgt, slot := none }
def stSend : State := { st wp with sends := [snd 3, snd 0] }
theorem witness_mailboxes : stSend.sends = [snd 3] ++ snd 0 :: [] ∧ (∀ y ∈ [snd 3], ¬ (y.gk = (snd 0).gk ∧ y.ix = (snd 0).ix)) ∧ kget stSend.warps (0 * 128 + 0) = some wp ∧
    wp.handler = false ∧ (stSend.core 0).mbox.length < 16 ∧
    (let t := nextOf (exec (.mailboxArrival 1) stSend) stSend; t.sends = [snd 3] ∧ (t.core 0).mbox = [msg 0]) ∧
    (let s := { stS sup with cores := [(0, { Machine.Core.reset with traps := [[1, 2, 3]] })] }
     (s.core 0).traps = [1, 2, 3] :: [] ∧ kget s.warps (supKey 0) = some sup ∧ ((nextOf (exec (.trapRecordDelivery 0) s) s).core 0).traps = []) := by
  decide +kernel

theorem witness_demand : (let s := stM mdq
    ksorted mdq.dem = true ∧ kget mdq.dem 1023 ≠ none ∧ s.ops = [] ∧ s.fab.inHeld = [] ∧ (∀ w ∈ s.warps, w.2.hold = none) ∧
    nextIs (exec (.demrespReplay 0 1023) s) (s.setMend 0 { mdq with dem := [] }) = true ∧ nextIs (exec (.demrespDecline 0 1023 0x18) s) s = true ∧
    nextIs (exec (.demrespDecline 0 1023 0x0F) s) s = true ∧ nextIs (exec (.demrespDecline 0 1023 0x17) s) (s.demDecline 1023 0x17) = true ∧
    nextIs (exec (.demandRecordPost 0) s) s.postWaiting = true) := by decide +kernel
/-- A load that a record holds, both of whose elements lie in the record's page; a note that waits for a free entry of die 0's queue. -/
def opHd : Op := { opLd with elems := [Elem.virt 0 0xFFF8 8 0 0 0, Elem.virt 2 0x40 8 0 0 0], hold := [1023] }
def nt : Note := { mend := 0, ctx := 1, grid := 1, core := 0, src := 0, part := 0, wish := { reason := 2, kind := 0, va := 0x30000 } }
theorem witness_declined_load : (let s := { stM mdq with warps := [(0, wp)], groups := [(gkey 1 0, gp)], ops := [(4, opHd)] }
    s.fab.inHeld = [] ∧ (∀ w ∈ s.warps, w.2.hold = none) ∧ opHd.want = [] ∧ opHd.fails = [] ∧ opHd.elems ≠ [] ∧
    (∀ e ∈ opHd.elems, e.place = none ∧ e.sent = false ∧ e.done = false ∧ s.lined opHd.ctx e.va false / 2 ^ 16 = 0) ∧
    (let t := nextOf (exec (.demrespDecline 0 1023 0x17) s) State.reset
     (t.ops.length, t.grids.map (·.2.killed), ((t.core 0).traps.headD []).getD 3 0) = (0, [some 0x117], 0x17000001))) := by decide +kernel
theorem witness_note : (let s := { stM { mdq with dem := [(0, { ctx := 1, page := 0, reason := 1, kind := 0, va := 0, ret := false, seq := 5 })] } with
      mem := { MemSys.reset with notes := [nt] } }
    s.ops = [] ∧ s.fab.inHeld = [] ∧ s.joined nt.ctx nt.wish = none ∧ (kget s.mends nt.mend).isSome = true ∧
    s.postWaiting.mem.notes = [] ∧ (s.postWaiting.mends.map fun m => m.2.dem.map fun d => (d.1, d.2.page)) = [[(0, 0), (1, 3)]]) := by decide +kernel
def opIdx : Op :=
  { who := .warp 0, ctx := 1, gk := wp.gk, insn := { pc := 0, word := 0, ext := 0 }, lanes := 0, slot := none, elems := [],
    hold := [], want := [], epoch := 0, kind := .async (.copy 0 0x100 16) (AWork.total (.copy 0 0x100 16)) [] [] 0 0 }
theorem witness_async : (let s := { stC wp with ops := [(3, opIdx)] }
    kget s.ops 3 = some opIdx ∧ s.bufVals opIdx (.copy 0 0x100 16) ≠ none ∧ ksorted s.ops = true ∧
    nextIs (exec (.asyncOpComplete 3 1) s) (s.asyncDone 3 opIdx) = true) := by decide +kernel
def ent (w : MWork) (p : Option Nat) : MEnt := { id := 5, wk := 0, insn := { pc := 0, word := 0, ext := 0 }, work := w, slot := none, pipe := p, op := none }
def stP (w : MWork) (p : Option Nat) : State :=
  { stC wt with
    groups := [(gkey 1 0, { gt with mq := [ent w p] })]
    clus := [(0, { Cluster.reset with pipes := match p with
    | some k => [(k, (gkey 1 0, 5))]
    | none => [] })] }
theorem witness_pipes : kget ((stP (.tzero 1 0) none).cluster 0).pipes 4 = none ∧ (stP (.tzero 1 0) none).pickEntry 0 4 = some (gkey 1 0, ent (.tzero 1 0) none) ∧
    (∀ w ∈ [MWork.tzero 15 1, .tcvt 1 3 0 0 0 false, .tmovVt 2 0 false false false false [(0, 7)], .mma 3 1 2 3 false true, .tmovTv 1 false [(8, 0, 0)]],
      let s := stP w (some 4)
      kget (s.cluster 0).pipes 4 = some (gkey 1 0, 5) ∧ (nextOf (exec (.matrixEntryComplete 0 4 1) s) s).groups.map (·.2.mq) = [[]]) := by decide +kernel
def gst : Group := { gp with stuck := some 0 }
def stStk (c : Nat) : State :=
  { st { wp with clause := none, park := .barg 3 } with
    groups := [(gkey 1 0, { gst with wks := [(0, 0)] })],
    cores := [(0, { Machine.Core.reset with cycles := c })] }
theorem witness_stuck : (stStk 65536).stuckMask { gst with wks := [(0, 0)] } = some 8 ∧ 0 + 65536 ≤ ((stStk 65536).core 0).cycles ∧
    (stStk 65536).seamStuck (gkey 1 0) = true ∧ nextIs (exec (.stuckGroupTimeout (gkey 1 0)) (stStk 65535)) (stStk 65535) = true ∧
    (kget (nextOf (exec (.stuckGroupTimeout (gkey 1 0)) (stStk 65536)) (stStk 0)).grids 1).map (·.killed) = some (some 0x230) := by decide +kernel

/-! ### Leases, pool, landing -/

/-- A mending core whose outbound lease slot 63 holds a valid message of a code about lease 5; pool ports 0 and 7 are in service. -/
def leaseBits (st expiry : Nat) : BitVec 128 := BitVec.ofNat 128 (st * 2 ^ 125 + 3 * 2 ^ 96 + 9 * 2 ^ 64 + expiry)
def mdL (code : Nat) : Mend := { md with cycles := 100, sram := mwrite [] (leaseOut + 32 * 63) (leBytes 32 (code + 5 * 2 ^ 32 + 2 ^ 255)) }
def pUp : KV PoolPort := [(0, { up := true }), (7, { up := true })]
def memL (stt expiry : Nat) : MemSys := { MemSys.reset with pports := pUp, leases := [(5, { bits := leaseBits stt expiry, last := 0 })] }
def stLs (m : Mend) (stt expiry : Nat) : State := { stM m with mem := memL stt expiry }
def at0 (r : Res) : State := nextOf r State.reset
theorem witness_lease_out : (stLs (mdL 1) 1 100).mem.leasePort 0 = some 0 ∧ (stLs (mdL 1) 1 100).mem.portUp 0 = true ∧
    (stLs (mdL 1) 1 100).mem.leasePort 3 = some 7 ∧ (stLs (mdL 1) 1 100).mem.leasePort 1 = some 0 ∧ (mdL 1).slotValid leaseOut 63 = true ∧ (mdL 1).sram.wf = true ∧
    (leaseMsgOf ((mdL 4).slotBytes leaseOut 63)).lease.toNat = 5 ∧ ((stLs (mdL 4) 1 100).lease 5).st = 1 ∧
    ((at0 (exec (.lrenew 0 63) (stLs (mdL 4) 1 100))).lease 5).st = 2 ∧ ((stLs (mdL 4) 3 100).lease 5).st ≠ 1 ∧
    nextIs (exec (.lacq 0 63) (stLs (mdL 1) 1 9)) (((stLs (mdL 1) 1 9).setMend 0 { (mdL 1).clearSlot leaseOut 63 with
      lreqs := [{ tag := 0, lease := 5 }] }).emit (.lease 0 0 (((mdL 1).slotBytes leaseOut 63).take 31 ++ [0]))) = true ∧
    nextIs (exec (.lrel 0 63) (stLs (mdL 5) 1 9)) (((stLs (mdL 5) 1 9).setMend 0 ((mdL 5).clearSlot leaseOut 63)).emit
      (.lease 0 0 (((mdL 5).slotBytes leaseOut 63).take 31 ++ [0]))) = true ∧ (stM md).mem.leasePort 0 = none := by decide +kernel
def lm (gen : Nat) : LeaseMsg := { tag := 0xFFFF, lease := 5, flags := 0, dur := 1, node := 3, extent := 9, gen := BitVec.ofNat _ gen }
def mdG : Mend := { md with linPos := 63, lreqs := [{ tag := 0xFFFF, lease := 5 }] }
def stD (m : Mend) (stt : Nat) : State :=
  { stM m with mem := { memL stt 100 with dir := [(5, { node := 3, extent := 9, dstate := 1, gen := 4 })] } }
theorem witness_lease_in : mdG.lmWait = [] ∧ mdG.sram.wf = true ∧ mdG.slotValid leaseIn 63 = false ∧
    nextIs (exec (.lgrant 0 (lm 3)) (stD mdG 0)) ((stD mdG 0).setMend 0 { mdG with lreqs := [] }) = true ∧
    nextIs (exec (.lgrant 0 (lm 4)) (stD md 3)) (stD md 3) = true ∧ (stD md 3).leaseTie 5 = false ∧
    (let s := { stD { md with cycles := 6 } 3 with mem := { memL 3 100 with leases := [(5, { bits := leaseBits 3 100, last := 0, ended := 7 })] } }
     s.leaseTie 5 = true ∧ ((at0 (exec (.lgrant 0 (lm 4)) s)).lease 5).st = 1) ∧
    nextIs (exec (.lgrant 0 (lm 4)) (stD mdG 3)) ((stD mdG 3).setMend 0 { { mdG with lreqs := [] }.fillSlot leaseIn 63 (leaseBytes 2 (lm 4)) with linPos := 0 }) = true ∧
    nextIs (exec (.ldeny 0 (lm 4)) (stD mdG 3)) ((stD mdG 3).setMend 0 { { mdG with lreqs := [] }.fillSlot leaseIn 63 (leaseBytes 3 (lm 4)) with linPos := 0 }) = true := by
  decide +kernel
theorem witness_lease_ends : (let s := stLs (mdL 0) 1 100
    kget s.mends (s.lease 5).owner = some (mdL 0) ∧ (s.lease 5).live = true ∧ (s.lease 5).expiry ≤ (mdL 0).cycles ∧
    (s.lease 5).granted ≠ (mdL 0).cycles + 1 ∧ (s.lease 5).tied = false ∧ (s.lease 5).reserve = false ∧ s.mem.pool.wf = true ∧
    ((at0 (exec (.leaseExpiry 5) s)).lease 5).st = 3 ∧ nextIs (exec (.leaseExpiry 5) (stLs (mdL 0) 2 101)) (stLs (mdL 0) 2 101) = true ∧
    nextIs (exec (.leaseExpiry 5) (stLs (mdL 0) 4 0)) (stLs (mdL 0) 4 0) = true ∧ ksorted s.mem.leases = true ∧ (∀ q ∈ s.mem.preqs, q.2.publishes = false) ∧ (s.lease 5).node = 3 ∧ (s.lease 5).st ≠ 0 ∧
    ((at0 (exec (.llost 0 3) s)).lease 5).st = 5 ∧ ((at0 (exec (.llost 0 2) s)).lease 5) = s.lease 5 ∧
    (∀ d ∈ [(2, 4), (3, 5), (1, 1), (0, 1)], ((at0 (exec (.directoryBackInvalidation 5 { node := 3, extent := 9, dstate := BitVec.ofNat 3 d.1, gen := 4 }) s)).lease 5).st = d.2) ∧
    ((at0 (exec (.directoryBackInvalidation 5 { node := 3, extent := 8, dstate := 3, gen := 4 }) s)).lease 5) = s.lease 5 ∧
    (let t := { s with mem := { s.mem with leases := [(5, { bits := leaseBits 3 100 + BitVec.ofNat 128 (2 ^ 124), last := 0 })] } }
     (t.lease 5).reserve = true ∧ ((at0 (exec (.directoryBackInvalidation 5 { node := 3, extent := 9, dstate := 2, gen := 4 }) t)).lease 5).st = 5)) := by
  decide +kernel
def sec1 (d l : Bool) : Sector := { valid := true, dirty := d, lost := l }
theorem witness_bisnp : (let s := { stLs md 1 100 with mem := { memL 1 100 with secs := [(15, sec1 false false), (16, sec1 true false)] },
                                                       cores := [(0, { Machine.Core.reset with l1 := [(2047, { bytes := [], kind := .pressed, marked := false })] })] }
    ksorted s.mem.secs = true ∧ (let t := at0 (exec (.bisnp 0 []) s)
      t.ctl.out = [.birsp 0] ∧ (t.mem.sec 15).valid = false ∧ t.mem.sec 16 = s.mem.sec 16 ∧
      (kget (t.core 0).l1 2047).map (·.marked) = some true ∧ t.mem.pool = s.mem.pool) ∧
    (at0 (exec (.bisnp 0 [7]) s)).mem.pool = mwrite s.mem.pool (s.mem.poolAddr 0) [7]) := by decide +kernel

def rq (w : PoolWork) (port : Nat) : PoolReq := { port := port, addr := 0x100, work := w, tries := 0 }
/-- Die 0 has counted 120,000 cycles since the request was sent. -/
def stPl (w : PoolWork) (port : Nat) : State := { stM { md with cycles := 120000 } with mem := { memL 1 9 with preqs := [(2, rq w port)], pool := [(0x100, 7), (0x10FF, 8)] } }
theorem witness_pool : ((stPl (.fill 4) 0).mem.sec 4).valid = false ∧ ((stPl (.fill 4) 0).mem.sec 4).lost = false ∧
    (stPl (.fill 4) 0).mem.seals = [] ∧ (stPl (.fill 4) 0).fab.inHeld = [] ∧ (stPl (.fill 4) 0).ops = [] ∧
    (at0 (exec (.poolTimeout 2) (stPl (.fill 4) 0))).mem.preqs = [] ∧
    (let early := { stPl (.fill 4) 0 with mends := [(0, { md with cycles := 119999 })] }; nextIs (exec (.poolTimeout 2) early) early = true) ∧
    nextIs (exec (.poolTimeout 2) (stPl (.publish 1 1) 0)) (stPl (.publish 1 1) 0) = true ∧
    (kget (at0 (exec (.poolTimeout 2) (stPl (.wb 4 []) 0))).mem.preqs 2).map (fun r => (r.port, r.tries)) = some (7, 1) ∧
    (∀ p ∈ [0, 7], kget (stPl (.wb 4 []) 0).mem.pports p = some { up := true }) ∧
    (∀ e ∈ (stPl (.wb 4 []) 0).mem.preqs, e.2.port ≠ 7) ∧
    nextIs (exec (.poolPortDown 7) (stPl (.wb 4 []) 0)) ({ stPl (.wb 4 []) 0 with mem := { (stPl (.wb 4 []) 0).mem with
      pports := [(0, { up := true }), (7, { up := false })] } }.memFault { kind := 2, unit := 7, node := 0, count := 0, carve := false, addr := 0, tag := 0xFFFF }) = true ∧
    (stPl (.fill 4) 7).mem.preqs = [(2, rq (.fill 4) 7)] ∧
    nextIs (exec (.poolPortDown 7) (stPl (.fill 4) 7)) ({ stPl (.fill 4) 7 with mem := { (stPl (.fill 4) 7).mem with
      pports := [(0, { up := true }), (7, { up := false })], preqs := [] } }.memFault { kind := 2, unit := 7, node := 0, count := 0, carve := false, addr := 0x4000, tag := 0xFFFF }) = true ∧
    ((at0 (exec (.poolPortDown 7) (stPl (.wb 4 [1]) 7))).mem.preqs.map fun e => (e.2.port, e.2.tries)) = [(0, 1)] ∧ (stPl (.wb 4 [1]) 7).mem.stalled = [] ∧
    (let s := { stM md with mem := { MemSys.reset with pports := [(7, { up := false })], preqs := [(2, { rq (.fill 4) 3 with out := false })] } }
     kget s.mem.pports 7 = some { up := false } ∧ s.fab.inHeld = [] ∧ (rq (.fill 4) 3).after = none ∧ s.mem.leases = [] ∧ { s.mem with pports := [(7, { up := true })] }.portFrom 3 = some 7 ∧
     nextIs (exec (.poolPortRetrain 7 false) s) s = true ∧
     (at0 (exec (.poolPortRetrain 7 true) s)).mem.preqs = [(2, rq (.fill 4) 7)] ∧
     (at0 (exec (.poolPortRetrain 7 true) s)).ctl.out.length = 64 ∧
     (at0 (exec (.poolPortRetrain 7 true) { s with mem := { s.mem with preqs := [] } })).mem.pports = [(7, { up := true })]) := by decide +kernel
/-- A write-back of sector 4, whose lease record has a state, and which holds the bytes that memory holds. -/
def stPw (st : Nat) (bs : List Byte) (after : Option Nat) : State :=
  { stPl (.wb 4 bs) 0 with mem := { (stPl (.wb 4 bs) 0).mem with
      preqs := [(2, { rq (.wb 4 bs) 0 with addr := 3 * 2 ^ 62 + 9 * 2 ^ 30 + 0x4000 }), (3, { rq (.fill 9) 0 with after := after, out := false })],
      leases := [(0, { bits := leaseBits st 9, last := 0 })], secs := [(4, sec1 true false)] } }
/-- A completion whose sector's key is the one it was written with fills the sector; one of a write-back writes the pool. -/
theorem witness_pool_completion : kgetD (stPl (.fill 4) 0).mem.seals (0x100 / 4096) ((stPl (.fill 4) 0).keyAt (4 * 4096)) =
      (stPl (.fill 4) 0).keyAt (4 * 4096) ∧
    (at0 (exec (.poolCompletion 2) (stPl (.wb 4 [1, 2]) 0))).mem.pool = [(0x100, 1), (0x101, 2), (0x10FF, 8)] ∧
    (rq (.fill 4) 0).out = true ∧ (∀ e ∈ (stPw 1 [1] none).mem.preqs, e.2.after ≠ some 2) ∧
    poolHome (3 * 2 ^ 62 + 9 * 2 ^ 30 + 0x4000) = ((stPw 1 [1] none).mem.leaseAt (4 * 4096)).home ∧ poolHome 0x100 ≠ ((stPw 1 [1] none).mem.leaseAt (4 * 4096)).home ∧
    (at0 (exec (.poolCompletion 2) (stPw 1 [1] none))).mem.secs = [(4, sec1 true false)] ∧
    (at0 (exec (.poolCompletion 2) (stPw 1 (mread (memL 1 9).bytes 0x4000 4096) none))).mem.secs = [(4, sec1 false false)] ∧
    (let s := stPw 0 [1] none
     (s.mem.leaseAt (4 * 4096)).st = 0 ∧ (∀ e ∈ s.mem.preqs, e.1 = 2 ∨ ∀ x, e.2.work ≠ .wb 4 x) ∧ ksorted s.mem.preqs = true ∧ ksorted s.mem.secs = true ∧
       ((at0 (exec (.poolCompletion 2) s)).mem.sec 4).valid = false ∧ nextIs (exec (.poolCompletion 3) s) s = true ∧ nextIs (exec (.poolTimeout 3) s) s = true) ∧
    nextIs (exec (.poolCompletion 2) (stPl (.publish 1 1) 0)) ({ stPl (.publish 1 1) 0 with mem := { (stPl (.publish 1 1) 0).mem with preqs := [] } }.publishOf 1 1) = true := by
  refine ⟨by decide +kernel, by decide +kernel, by decide +kernel, by decide +kernel, by decide +kernel, by decide +kernel, by decide +kernel, by decide +kernel,
    ⟨by decide +kernel, ?_, by decide +kernel, by decide +kernel, by decide +kernel, by decide +kernel, by decide +kernel⟩, by decide +kernel⟩
  intro e h
  simp only [stPw, List.mem_cons, List.not_mem_nil, or_false] at h
  rcases h with rfl | rfl
  · exact .inl rfl
  · right; intro x; simp [rq]
/-- A load of sector 4 waits for its fill; page 1 of a TURN, of which element 0 names the first page, waits for its publication. -/
def opW (k : OpKind) (e : Elem) : Op := { opLd with kind := k, elems := [e] }
def elW : Elem := { Elem.virt 0 0x4007 1 1 0 8 with place := some (.loc 0x4007 .loc) }
def stPo (w : PoolWork) (o : Op) (cyc : Nat) : State :=
  { stPl w 0 with mends := [(0, { md with cycles := cyc })], ops := [(1, o)], grids := [(1, gr)] }
theorem witness_pool_late : (let o := opW (.acc (.load false 2 true)) elW
    let s := stPo (.fill 4) o 120000
    let u := { s with mem := { s.mem with preqs := [] } }
    s.mem.stalled = [] ∧ s.fab.inHeld = [] ∧ elW.done = false ∧ elW.sent = false ∧ 0x4007 / 4096 = 4 ∧ s.mem.forward 0x4007 = none ∧
      (u.postDemand o.ctx (u.srcOf o.who o.ctx none) { reason := 6, kind := o.kindCode, va := elW.va }).2 = some 0 ∧
      ((at0 (exec (.poolTimeout 2) s)).ops.map fun x => x.2.hold) = [[0]]) ∧
    (let o := opW opIdx.kind { elW with reg := 1 }
     let s := stPo (.publish 1 1) o 12000000
     let u := { s with mem := { s.mem with preqs := [] } }
     (u.postDemand o.ctx (u.srcOf o.who o.ctx none) { reason := 6, kind := 1, va := elW.va }).2 = some 0 ∧ elW.lane = 0 ∧
       ((at0 (exec (.poolTimeout 2) s)).ops.map fun x => (x.2.hold, x.2.elems.map fun e => (e.swap, e.data))) = [([0], [(0, 1)])]) := by decide +kernel
/-- The last entry of the fault ring is written, and the ring wraps; a full ring keeps an entry of KIND 5 and counts one of KIND 1. -/
theorem test_fault_ring : (let c := { md with frPos := 255, frDrops := 3 }
    let e := fun (k : Nat) => ({ kind := k, unit := 6, node := 0, count := 0, carve := false, addr := 0, tag := 0 } : FaultEnt)
    let x := c.fault (e 5)
    (x.frPos, x.frDrops, x.slotValid faultRing 255, (mget x.sram (faultRing + 32 * 255 + 29)).toNat, mnum x.sram (faultRing + 32 * 255 + 27) 2) = (0, 0, true, 6, 3) ∧
    (let y := { x with frPos := 255 }; ((y.fault (e 5)).frWait.length, (y.fault (e 1)).frDrops) = (1, 1))) := by decide +kernel

/-- A landing window of one page in context 1, for requester 0x1234 under a full mask. -/
def lwin (en : Bool) (ctx : Option Nat) : LandWin := { LandWin.reset with en := en, ctx := ctx, pages := 1, base := 0, reqid := 0x1234, mask := 0xFFFF, marker := 0xFFFC }
def stLd2 (x : LandWin) : State := { stC wp with land := { (stC wp).land with wins := [(63, x)] } }
theorem witness_land : (let x := lwin true (some 1)
    let s := stLd2 x
    let off := 63 * 2 ^ 32 + 0xFFFF
    s.mgmt.stage = 9 ∧ s.win 63 = x ∧ (0xFFFF : Nat) < x.pages.toNat * 65536 ∧ off < 2 ^ 38 ∧
    nextIs (exec (.landingWrite 0x1234 off [1] false) s) (s.landApply 63 x 1 0x1234 0xFFFF [1]) = true ∧
    nextIs (exec (.landingWrite 0x1234 off [1] true) s) (s.landFault s.opNo 63 cUncorrectable 0 0xFFFF) = true ∧
    x.turnsAway 0x1234 (2 ^ 32 - 1) 2 = some 2 ∧ x.turnsAway 0x1234 0x10000 1 = some 0 ∧ (lwin false (some 1)).turnsAway 0x1234 0 1 = some 0 ∧
    (lwin true none).turnsAway 0x1234 0 1 = some 0 ∧ x.turnsAway 0x1235 0 1 = some 1 ∧
    nextIs (exec (.landingWrite 0x1235 off [1] false) s) (s.landDiscard 63 0x1235 1) = true ∧
    (s.landDiscard 63 0x1235 1).land.err.toNat = 63 * 2 ^ 26 + 2 ^ 24 + 2 ^ 16 + 0x1235 ∧
    x.marks 0xFFFF 1 = true ∧ x.marks 0xFFF7 1 = false ∧ (s.landFault 0 63 1 0 0).land.flt.getLsbD 63 = true) := by decide +kernel

/-! ### Scheduler -/

/-- Queue 255 with its last slot next, and a packet there; header: PAR, TYPE, N, CREC, TAG. -/
def pk (ty n payload : Nat) : Nat := 0x1234 + 2 ^ 49 + n * 2 ^ 52 + ty * 2 ^ 56 + 2 ^ 63 + payload * 2 ^ 64
def qq : Queue := { Queue.reset with en := true, state := 1, rdidx := 4095 }
def stQ (p : Nat) : State :=
  { stC wp with sched := { Sched.reset with queues := [(255, qq)], parts := (stC wp).sched.parts, counts := [(4095, 3)],
                                            win := mwrite [] (255 * 0x40000 + 64 * 4095) (leBytes 64 p) } }
theorem witness_packet_at : ∀ e ∈ [(1, 12), (2, 0), (3, 0), (4, 0), (0, 0)], PacketAt (stQ (pk e.1 e.2 5)) 255 e.1 (pk e.1 e.2 5) := by
  unfold PacketAt; decide +kernel
theorem witness_count : (let p := pk 2 0 (4095 + 2 ^ 64 * 7)
    nextIs (exec (.countPacket 255) (stQ p)) (taken (stQ p) 255 p none [(4095, 10)]) = true) ∧
    (let p := pk 2 0 (4096 + 2 ^ 64 * 7); nextIs (exec (.countPacket 255) (stQ p)) (queueErr (stQ p) 255 1) = true) := by decide +kernel
theorem witness_fence : (let p := pk 1 1 (2 + 2 ^ 64 * (1 + 4095 * 2 ^ 20))
    nextIs (exec (.fencePacket 255) (stQ p)) (taken (stQ p) 255 p none [(4095, 3)]) = true) ∧
    (let p := pk 1 1 (3 + 2 ^ 64 * (1 + 4095 * 2 ^ 20))
     nextIs (exec (.fencePacket 255) (stQ p)) ((stQ p).modQueue 255 fun r => { r with state := 2 }) = true) ∧
    (∀ n ∈ [0, 13], nextIs (exec (.fencePacket 255) (stQ (pk 1 n 0))) (queueErr (stQ (pk 1 n 0)) 255 3) = true) := by decide +kernel
theorem witness_write_copy : (let p := pk 3 0 (0x40 + 2 ^ 64 * 9)
    let s := stQ p
    nextIs (exec (.writePacket 255) s) (((taken s 255 p (some s.opNo) s.sched.counts).addOp
      { who := .queue 255, ctx := queueCtx 255, gk := 0, insn := s.ctl.insn, kind := .acc .store, lanes := 0, slot := none,
        elems := [Elem.virt 0 0x40 8 9 0 0], hold := [], want := [], epoch := 0 }).transOp s.opNo) = true) ∧
    nextIs (exec (.writePacket 255) (stQ (pk 3 0 0x44))) (queueErr (stQ (pk 3 0 0x44)) 255 4) = true ∧
    (let p := pk 4 0 (0x40 + 2 ^ 64 * 0x10 + 2 ^ 128 * 2 ^ 32)
     (nextOf (exec (.copyPacket 255) (stQ p)) State.reset).ops.length = 1) ∧
    nextIs (exec (.copyPacket 255) (stQ (pk 4 0 0x48))) (queueErr (stQ (pk 4 0 0x48)) 255 4) = true ∧
    nextIs (exec (.copyPacket 255) (stQ (pk 4 0 0x40))) (queueErr (stQ (pk 4 0 0x40)) 255 5) = true := by decide +kernel

/-- A LAUNCH of one group by the descriptor at 0x40, whose doublewords have been read; the descriptor asks for one warp of 16 lanes. -/
def pl (seam : Nat) : Nat := pk 0 0 0x40 + 2 ^ 384 + seam * 2 ^ 448
def dsc (seam : Bool) : Nat := 2 ^ 175 + (if seam then 2 ^ 203 else 0)
def rdOp (a bits : Nat) : Op :=
  { who := .queue 255, ctx := queueCtx 255, gk := 0, insn := { pc := 0, word := 0, ext := 0 }, kind := .acc .recRd, lanes := 0, slot := none, hold := [],
    want := [], epoch := 0,
    elems := (List.range 8).map fun i => { Elem.virt 0 (a + 8 * i) 8 0 0 0 with got := some (BitVec.ofNat 64 (bits / 2 ^ (64 * i))), done := true } }
def srec : Nat := 5 * 2 ^ 256
def stLa (seam : Bool) : State := { stQ (pl (if seam then 0x80 else 0)) with ops := [(0, rdOp 0x40 (dsc seam)), (1, rdOp 0x80 srec)] }
theorem witness_launch : PacketAt (stQ (pl 0)) 255 0 (pl 0) ∧ PacketAt (stLa true) 255 0 (pl 0x80) ∧ kdescBad (dsc false) (kdescOf (dsc false)) = false ∧
    kdescBad (dsc true) (kdescOf (dsc true)) = false ∧ (kdescOf (dsc true)).seam = true ∧ seamRecBad srec (kdescOf (dsc true)) 1 = false ∧
    kdescBad 0 (kdescOf 0) = true ∧
    nextIs (exec (.launch 255) (stLa false)) ((stLa false).addGrid 255 (pl 0) (kdescOf (dsc false)) none) = true ∧
    nextIs (exec (.launch 255) (stLa true)) ((stLa true).addGrid 255 (pl 0x80) (kdescOf (dsc true)) (some (seamRecOf srec))) = true ∧
    ((nextOf (exec (.launch 255) (stQ (pl 0))) State.reset).ops.map fun o => o.2.elems.map fun e => (e.va, e.n)) = [(List.range 8).map fun i => (0x40 + 8 * i, 8)] ∧
    ((nextOf (exec (.launch 255) { stQ (pl 0) with ops := [(0, rdOp 0x40 0)] }) State.reset).queue 255).err = 6 := by
  unfold PacketAt; decide +kernel
theorem witness_read_back : ReadBack (stLa true) 255 0x40 (dsc true) ∧ ReadBack (stLa true) 255 0x80 srec :=
  ⟨⟨0, rdOp 0x40 (dsc true), by decide +kernel, by decide +kernel, by decide +kernel⟩, ⟨1, rdOp 0x80 srec, by decide +kernel, by decide +kernel, by decide +kernel⟩⟩

def pend (cen : Bool) : Packet := { q := 255, slot := 4095, tag := 7, par := true, crec := true, cen := cen, cidx := 4095, op := none, status := 0 }
def stPk (cen : Bool) : State := { stQ 0 with sched := { (stQ 0).sched with packets := [pend cen], queues := [(255, { qq with open_ := [(4095, 0)] })] } }
theorem witness_packet_complete : (stPk true).hostOwed (· == 0) = false ∧ (stPk true).sched.win.wf = true ∧ ksorted (stPk true).sched.counts = true ∧
    (let t := at0 (exec (.packetComplete 255 4095) (stPk true))
     (t.sched.packets, t.count 4095, (t.queue 255).open_, mread t.sched.win (0x5000000 + 255 * 0x10000 + 16 * 4095) 16) =
       ([], 4, [], leBytes 16 (7 + 2 ^ 48))) ∧ (at0 (exec (.packetComplete 255 4095) (stPk false))).count 4095 = 3 := by decide +kernel
def grE : Grid := { gr with q := 255, pslot := 9, ngroups := 1, fin := 1, crec := true }
def stEnd : State := { stQ 0 with grids := [(1, grE)], groups := [], warps := [] }
theorem witness_grid_complete : stEnd.grids.find? (fun g => g.2.q == 255 && g.2.pslot == 9 && stEnd.gridDone g.1 g.2) = some (1, grE) ∧
    stEnd.hostOwed (fun k => gkGrid k == 1 && k != 0) = false ∧ (at0 (exec (.packetComplete 255 9) stEnd)).grids = [] := by decide +kernel
/-- With the host's link up. -/
def hostUp (s : State) : State := { s with host := { s.host with up := true } }
theorem witness_queues : (let s := { hostUp (stQ 0) with sched := { (stQ 0).sched with queues := [(255, { qq with en := false, state := 0 })] } }
    (s.queue 255).en = false ∧ s.host.up = true ∧ (stQ 0).host.up = false ∧ ((at0 (exec (.queueEnable 255) s)).queue 255).state = 1 ∧ ((at0 (exec (.queueEnable 255) s)).queue 255).rdidx = 0 ∧
    nextIs (exec (.queueDisable 255) s) s = true ∧ nextIs (exec (.queueEnable 255) (hostUp (stQ 0))) (hostUp (stQ 0)) = true ∧
    ((at0 (exec (.queueDisable 255) (hostUp (stQ (pk 2 0 0))))).queue 255).state = 1 ∧ ((at0 (exec (.queueDisable 255) (hostUp (stQ 0)))).queue 255).state = 0 ∧
    nextIs (exec (.queueDisable 255) (stQ 0)) (stQ 0) = true) := by decide +kernel

/-- Partition 0 with cluster 0 runs; grid 1 of queue 255 has one group that waits. -/
def pt0 : Part := { Part.reset with clusters := 1, state := 1 }
def gw : Grid := { gr with q := 255, nextg := 0, ngroups := 1, data := 0x500000004 }
def stG (g : Grid) : State :=
  { State.reset with sched := { Sched.reset with parts := [(0, pt0)], queues := [(255, qq)] }, grids := [(1, g)] }
def w0 : Waiting := { ix := 0, frame := none, held := false }
theorem witness_placement : (let s := stG gw
    (s.part 0).state = 1 ∧ (s.part 0).stopped = false ∧ s.seams = [] ∧ 0 ∈ ((s.pruneRooms.waitingQueues 0).filter fun q => (s.pruneRooms.placeFor 0 q).isSome).map s.pruneRooms.level ∧
    (s.pruneRooms.selectQ 0 0 [255] selectFuel).2 = some 255 ∧
    (let t := (s.pruneRooms.selectQ 0 0 [255] selectFuel).1
     t.placeFor 0 255 = some (1, gw, w0, [0], [0]) ∧ kget t.grids 1 = some gw ∧
     nextIs (exec (.groupPlacement 0) s) (((t.startGroup 1 0 .run [0] [0]).passOver 0 255).afterPlace 0 255) = true)) := by decide +kernel
/-- A saved group whose exit is held comes back from its frame at address 0. -/
def gsv : Grid := { gw with waits := [{ w0 with frame := some 0 }], nextg := 1, desc := { gw.desc with tile := false, scratch := 0 }, nframe := 1, frames := [0] }
def stGs : State := { stG gsv with mem := (stC wp).mem, groups := [(gkey 1 0, { gp with phase := .saved 0, wks := [], snap := [] })] }
theorem witness_placement_saved : (let t := (stGs.pruneRooms.selectQ 0 0 [255] selectFuel).1
    t.placeFor 0 255 = some (1, gsv, { w0 with frame := some 0 }, [0], [0]) ∧
    (t.placeGroup 1 gsv { w0 with frame := some 0 } [0] [0]).runs (gkey 1 0) = true) := by decide +kernel
def rs : SeamRec := { id := 9, members := 1, mbase := 0, peers := [0] }
def sm (p : SPhase) : Seam := { Seam.fresh rs with phase := p, locals := [(0, gkey 1 0)] }
def stSm (p : SPhase) : State := { stG { gw with seam := some rs } with seams := [(9, sm p)] }
theorem witness_placement_seam : (stSm .idle).commitWaits (sm .idle) = false ∧
    (let t := ((stSm .idle).pruneRooms.selectQ 0 0 [255] selectFuel).1
     t.placeFor 0 255 = some (1, { gw with seam := some rs }, w0, [0], [0]) ∧ kget t.seams 9 = some (sm .idle) ∧
     nextIs (exec (.groupPlacement 0) (stSm .idle)) (t.startSeam 9 (sm .idle)) = true) := by decide +kernel
theorem test_fresh_warp : rget (Warp.fresh gw 0 3).s 2 = 4 ∧ rget (Warp.fresh gw 0 3).s 3 = 5 ∧ kget (stG gw).grids 1 = some gw := by decide +kernel

/-- A stopped group with a decision. -/
def gd (d : Decision) : Group := { gp with phase := .stopping d, wks := [] }
def stDc (d : Decision) : State := { stG { gw with nextg := 1, nframe := 2 } with groups := [(gkey 1 0, gd d)] }
theorem witness_preemption : ∀ d ∈ [Decision.drain, .flush, .save], (stDc d).quiet (gkey 1 0) (gd d) = true ∧ ksorted (stDc d).groups = true ∧
    nextIs (exec (.preemption 0) (stDc d)) (match d with
    | .drain => (stDc d).setGroup (gkey 1 0) { gd d with phase := .run }
    | .flush => (stDc d).flushGroup (gkey 1 0)
    | .save => (stDc d).beginSave (gkey 1 0)) = true := by decide +kernel
/-- Four groups of a grid of level 0 stand on the four cores; a group of level 3 needs a whole scratchpad. -/
def gi (i : Nat) : Group := { gp with cores := [i], slots := [16 * i], wks := [], admitNo := i }
def big : Grid := { gw with q := 1, desc := { gw.desc with scratch := Config.scratchBytes } }
def stV : State :=
  { stG { gw with nextg := 1 } with
    grids := [(1, { gw with nextg := 1 }), (2, big)],
    groups := (List.range 4).map fun i => (gkey 1 i, gi i),
    sched := { Sched.reset with parts := [(0, pt0)], queues := [(1, { qq with prio := 3 }), (255, qq)] } }
theorem witness_victims : (let brings := stV.bringsOf (gkey 2 0) big.desc none
    stV.waitingQueues 0 = [1] ∧ stV.nextGroup 0 1 = some (2, big, w0) ∧ stV.fitFirst (stV.otherRooms 1) noneGone big.desc brings (stV.openSites 0 1 big.desc.pair) = none ∧
    stV.clearFor (stV.otherRooms 1) big.desc brings (stV.level 1) stV.leavers (stV.openSites 0 1 big.desc.pair) = some ([0], [0], [gkey 1 0]) ∧
    nextIs (exec (.preemption 0) stV) (({ stV with sched := { stV.sched with rooms := [{ q := 1, gk := gkey 2 0, cores := [0], slots := [0], going := [gkey 1 0] }] } }).preemptGroup (gkey 1 0)
      (stV.decision (gkey 1 0))) = true) := by decide +kernel
theorem witness_decision : (let g := { gw with desc := { gw.desc with est := 8, idem := true } }
    let s := { stDc .drain with grids := [(1, g)] }
    s.decision (gkey 1 0) = .flush ∧ ({ s with groups := [(gkey 1 0, { gd .drain with w := 6 })] } : State).decision (gkey 1 0) = .drain ∧
    ({ s with grids := [(1, { g with savevec := 8, nframe := 1 })], groups := [(gkey 1 0, { gd .drain with pub := true })] } : State).decision (gkey 1 0) = .save) := by
  decide +kernel

/-- A group whose handlers have ended, and whose frame is at address 0; page 33, which the frame also reaches, is mapped and filled. -/
def gsg : Group := { gp with phase := .saving 0, wks := [(0, 0)], snap := [(0, wp)] }
def stSv : State :=
  { stC { wp with handler := true, live := 0 } with
    groups := [(gkey 1 0, gsg)], grids := [(1, { gsv with waits := [] })],
    mem := { (stC wp).mem with
      bytes := mwrite (mwrite (stC wp).mem.bytes 0x4008 (leBytes 8 0x5001)) 0x5008 (leBytes 8 0x8000F)
      secs := (List.range 14).foldl (fun m i => kset m (34 + i) (sec1 false false)) (stC wp).mem.secs } }
theorem witness_save_complete : (kget stSv.groups (gkey 1 0) = some gsg ∧ stSv.ops = [] ∧ ∀ e ∈ stSv.warpsOf gsg, e.2.2.handler = true ∧ e.2.2.live = 0) ∧
    (stSv.frameReady 1 false (sectorsFrom ({ gsv with waits := [] }.frameAt 0) (headSectors gsv.desc) ++
      sectorsFrom ({ gsv with waits := [] }.frameAt 0 + gapAt) gapSectors)).2 = true ∧
    (match stSv.writeFrame (gkey 1 0) 0 gsg { gsv with waits := [] } false with
    | .ok u => decide (let t := at0 (exec (.saveComplete (gkey 1 0)) stSv)
        t.mem = u.mem ∧ t.warps = [] ∧ (kget t.groups (gkey 1 0)).map (·.phase) = some (.saved 0))
    | _ => false) = true := by decide +kernel

/-! ### Seams -/

/-- A device of number 0 that leads seam 9 of two devices; a member group in a phase. -/
def rs2 : SeamRec := { rs with members := 2, peers := [0, 3] }
def m2 (p : SPhase) (a : List Nat) : Seam := { Seam.fresh rs2 with phase := p, locals := [(0, gkey 1 0)], answers := a }
def stM2 (m : Seam) (c : Nat) : State :=
  { stG { gw with seam := some rs2 } with seams := [(9, m)], cores := [(0, { Machine.Core.reset with cycles := c })] }
theorem witness_reserve : ((stSm .idle).reserveSeam (sm .idle)).isSome = true ∧
    (at0 (exec (.reserve ⟨0, none⟩ 9) (stSm .idle))).ctl.selfq = [.reserved ⟨0, none⟩ 9] ∧
    (let s := { stSm .idle with sched := Sched.reset }
     s.reserveSeam (sm .idle) = none ∧ s.revocable 9 = [] ∧ (at0 (exec (.reserve ⟨0, none⟩ 9) s)).ctl.selfq = [.busy ⟨0, none⟩ 9]) ∧
    (at0 (exec (.reserve ⟨0, none⟩ 8) (stSm .idle))).ctl.selfq = [.busy ⟨0, none⟩ 8] := by decide +kernel
/-- Seam 10 holds the four scratchpads that seam 9 needs one of. -/
def m10 : Seam := { Seam.fresh rs with members := 4, peers := [0, 0, 0, 0], locals := (List.range 4).map fun i => (i, gkey 2 i) }
def stRv : State :=
  { stSm .idle with
    seams := [(9, sm .idle), (10, m10)],
    grids := [(1, { big with seam := some rs, q := 255 }), (2, { big with seam := some { rs with id := 10, members := 4 } })],
    groups := (List.range 4).map fun i => (gkey 2 i, { gi i with phase := .reserved none }) }
theorem witness_revoke : stRv.reserveSeam (sm .idle) = none ∧ stRv.revocable 9 = [(10, m10)] ∧ ((stRv.freeSeam m10).reserveSeam (sm .idle)).isSome = true ∧
    (at0 (exec (.reserve ⟨0, none⟩ 9) stRv)).ctl.selfq = [.revoke ⟨0, none⟩ 10, .reserved ⟨0, none⟩ 9] ∧ (at0 (exec (.reserve ⟨0, none⟩ 9) stRv)).groups.length = 1 := by decide +kernel
theorem witness_answers : Leads (stM2 (m2 .reserving [3]) 0) 9 (m2 .reserving [3]) ∧ everyDevice (m2 .reserving [3]) (joined (m2 .reserving [3]) 0) ∧
    ¬ everyDevice (m2 .reserving []) (joined (m2 .reserving []) 0) ∧
    nextIs (exec (.reserved ⟨0, none⟩ 9) (stM2 (m2 .reserving [3]) 7)) (((stM2 (m2 .reserving [3]) 7).setSeam 9 { m2 .committing [] with start := 7 }).seamAll (m2 .idle []) 4 9) = true ∧
    nextIs (exec (.reserved ⟨0, none⟩ 9) (stM2 (m2 .reserving []) 7)) ((stM2 (m2 .reserving []) 7).setSeam 9 (m2 .reserving [0])) = true ∧
    nextIs (exec (.ready ⟨0, none⟩ 9) (stM2 (m2 .committing [3]) 7)) (((stM2 (m2 .committing [3]) 7).setSeam 9 (m2 .resident [])).seamAll (m2 .idle []) 6 9) = true ∧
    nextIs (exec (.ready ⟨3, none⟩ 9) (stM2 (m2 .committing []) 7)) ((stM2 (m2 .committing []) 7).setSeam 9 (m2 .committing [3])) = true := by
  unfold Leads everyDevice; decide +kernel
theorem witness_attempts : ∀ p ∈ [SPhase.reserving, .committing], ∀ k ∈ [0, 8, 1023],
    (let m := { m2 p [] with fails := k }
     Pending m ∧ nextIs (exec (.busy ⟨3, none⟩ 9) (stM2 m 5)) (attemptFails (stM2 m 5) 9 m 3) = true ∧
       nextIs (exec (.revoke ⟨3, none⟩ 9) (stM2 m 5)) (attemptFails (stM2 m 5) 9 m m.lastBusy) = true ∧
       nextIs (exec (.rendezvousTimeout 9) (stM2 m 1048576)) (attemptFails (stM2 m 1048576) 9 m 3) = true ∧
       nextIs (exec (.rendezvousTimeout 9) (stM2 m 1048575)) (stM2 m 1048575) = true) := by unfold Pending; decide +kernel
theorem test_backoff : ((attemptFails (stM2 { m2 .reserving [] with fails := 8 } 5) 9 { m2 .reserving [] with fails := 8 } 3).seams.map fun e => (e.2.fails, e.2.retry)) =
    [(9, 5 + 4096 * 256)] := by decide +kernel
theorem witness_retry : (let m := { m2 .idle [] with retry := 8 }
    (stM2 m 8).member0Waits m = true ∧ nextIs (exec (.rendezvousRetry 9) (stM2 m 7)) (stM2 m 7) = true ∧
    nextIs (exec (.rendezvousRetry 9) (stM2 m 8)) (((stM2 m 8).setSeam 9 { m2 .reserving [] with start := 8 }).seamAll (m2 .idle []) 1 9) = true) := by
  decide +kernel
def stRes (f : Option Nat) : State := { stM2 (m2 .committing []) 0 with groups := [(gkey 1 0, { gi 0 with phase := .reserved f })] }
theorem witness_commit_release : (∀ x ∈ (stRes none).membersHere (m2 .committing []), x.2.2.phase = .reserved none) ∧
    (stRes none).membersHere (m2 .committing []) ≠ [] ∧ ksorted (stRes none).groups = true ∧
    (let m := { m2 .committing [] with seen := 0x10 }
     nextIs (exec (.commit ⟨0, none⟩ 9) (stRes none)) (((stRes none).setSeam 9 m).commitSeam 9 m) = true) ∧
    (let u := { stRes none with groups := [] }
     (∀ e ∈ (m2 .committing []).locals, u.hasReserved e.2 = false) ∧
       (∃ e ∈ (m2 .committing []).locals, (({ u with grids := [(1, { gw with waits := [w0] })] } : State).waitingOf e.2).isSome = true)) ∧
    ((kget ((stRes none).commitSeam 9 (m2 .committing [])).groups (gkey 1 0)).map fun g => (g.phase, g.slots)) = some (.commit none, [0]) ∧
    (at0 (exec (.release ⟨0, none⟩ 9) (stRes none))).groups = [] ∧
    ((at0 (exec (.release ⟨0, none⟩ 9) (stRes (some 4)))).groups.map (·.2.phase)) = [.saved 4] := by decide +kernel
theorem witness_stop : nextIs (exec (.stopreq ⟨3, none⟩ 9) (stM2 (m2 .resident []) 0)) (((stM2 (m2 .resident []) 0).setSeam 9 (m2 .stopping [])).seamAll (m2 .idle []) 10 9) = true ∧
    nextIs (exec (.stopreq ⟨3, none⟩ 9) (stM2 (m2 .idle []) 0)) (stM2 (m2 .idle []) 0) = true ∧
    (let s := stM2 { m2 .stopping [3] with decs := 8 } 0
     (¬ ∃ i, i < 2 ∧ bitsOf (8 ||| (2 : Word)).toNat (2 * i) 2 = 1) ∧
     nextIs (exec (.stopped ⟨0, none⟩ 9 2) s) ((s.setSeam 9 { m2 .idle [] with decs := 10 }).seamAll (m2 .idle []) 12 9) = true ∧
     nextIs (exec (.stopped ⟨0, none⟩ 9 1) s) ((s.setSeam 9 { m2 .resident [] with decs := 9 }).seamAll (m2 .idle []) 6 9) = true ∧
     nextIs (exec (.stopped ⟨0, none⟩ 9 1) (stM2 (m2 .stopping []) 0)) ((stM2 (m2 .stopping []) 0).setSeam 9 { m2 .stopping [0] with decs := 1 }) = true) ∧
    (∃ j, j < (m2 .resident []).members ∧ j ≠ 1 ∧ (m2 .resident []).dets.getLsbD j = false) ∧
    ((kget (at0 (exec (.detached ⟨3, none⟩ 9 1) (stM2 (m2 .resident []) 0))).seams 9).map (·.dets)) = some 2 ∧
    (let m := { m2 .resident [] with dets := 1 }
     (∀ j, j < m.members → j ≠ 1 → m.dets.getLsbD j = true) ∧ m.done = false ∧
     (let t := at0 (exec (.detached ⟨3, none⟩ 9 1) (stM2 m 0)); (t.ctl.selfq, t.seams.map (·.2.done)) = ([.exitdone ⟨0, none⟩ 9], [true]))) := by
  refine ⟨by decide +kernel, by decide +kernel, by decide +kernel, ⟨0, by decide +kernel⟩, by decide +kernel, by decide +kernel⟩
/-- A message of each kind from device 3 over port 15: the next of its link, one that comes early and one that comes again; and at a port
that is down. -/
def stLk (up : Bool) : State := { stM2 (m2 .reserving []) 0 with fab := { Fabric.reset with ports := [(15, { KPort.reset with up := up, rx := 5 })] } }
theorem witness_messages_in_turn : (stLk true).kport 15 = { KPort.reset with up := true, rx := 5 } ∧ ((stLk false).kport 15).up = false ∧ (5 : BitVec 11) = ((stLk true).kport 15).rx ∧
    (∀ n ∈ [6, 1028], (BitVec.ofNat 11 n ≠ (5 : BitVec 11)) ∧ (BitVec.ofNat 11 n - 5).toNat < 1024) ∧ (∀ n ∈ [1029, 4], 1024 ≤ (BitVec.ofNat 11 n - 5).toNat) ∧
    (let t := at0 (exec (.busy ⟨3, some ⟨15, 1028⟩⟩ 9) (stLk true)); ((t.kport 15).early.map (·.1), t.seams) = ([1028], (stLk true).seams)) ∧
    (at0 (exec (.busy ⟨3, some ⟨15, 4⟩⟩ 9) (stLk true))).seams = (stLk true).seams ∧ nextIs (exec (.busy ⟨3, some ⟨15, 5⟩⟩ 9) (stLk false)) (stLk false) = true ∧
    ((at0 (exec (.busy ⟨3, some ⟨15, 5⟩⟩ 9) (stLk true))).seams.map fun e => e.2.fails) = [1] := by decide +kernel
/-- Each message that a seam has acted on does nothing when it comes again (17 R420). -/
theorem witness_messages_again_here : ∀ e ∈ [(1, Instr.reserve ⟨3, none⟩ 9), (4, .commit ⟨3, none⟩ 9), (6, .go ⟨3, none⟩ 9), (7, .release ⟨3, none⟩ 9), (10, .stop ⟨3, none⟩ 9),
    (12, .save ⟨3, none⟩ 9)], (let m := { m2 .resident [] with seen := BitVec.ofNat 16 (2 ^ e.1) }
     m.seen.getLsbD e.1 = true ∧ nextIs (exec e.2 (stM2 m 0)) (stM2 m 0) = true) := by decide +kernel
def stPh (p : GPhase) : State := { stM2 (m2 .resident []) 0 with groups := [(gkey 1 0, { gi 0 with phase := p, retired := 3 })] }
theorem witness_members : (∀ p ∈ [GPhase.run, .held], nextIs (exec (.stop ⟨0, none⟩ 9) (stPh p)) (((stPh p).setSeam 9 { m2 .resident [] with seen := 0x400 }).modGroup (gkey 1 0) fun g =>
      { g with phase := .stopping ((stPh p).decision (gkey 1 0)) }) = true) ∧
    (at0 (exec (.stop ⟨0, none⟩ 9) (stPh .gone))).ctl.selfq = [.stopped ⟨0, none⟩ 9 0] ∧
    (∀ x ∈ [(8, GPhase.run, true, Decision.save), (0, .run, false, .drain)],
      let s := { stPh x.2.1 with mgmt := { (stPh x.2.1).mgmt with clop := some { cluster := 0, emerg := true } },
                                 grids := [(1, { gw with seam := some rs2, savevec := BitVec.ofNat 32 x.1, nframe := 2 })] }
      s.emergency (gi 0) = true ∧ s.canSave (gkey 1 0) = x.2.2.1 ∧
        (at0 (exec (.stop ⟨0, none⟩ 9) s)).groups.map (·.2.phase) = [.stopping x.2.2.2]) ∧
    nextIs (exec (.save ⟨0, none⟩ 9) (stPh (.stopped .save))) (((stPh (.stopped .save)).setSeam 9 { m2 .resident [] with seen := 0x1000 }).beginSave (gkey 1 0)) = true ∧
    (stPh .run).mgmt.clop = none ∧ (stPh (.commit none)).mustLeave (gkey 1 0) (gi 0) = false ∧
    (∀ p ∈ [GPhase.stopped .drain, .commit none], nextIs (exec (.go ⟨0, none⟩ 9) (stPh p)) (((stPh p).setSeam 9 { m2 .resident [] with seen := 0x40 }).modGroup (gkey 1 0) fun g => { g with phase := .held }) = true) ∧
    (let s := stPh (.commit none)
     let u := { s with sched := { s.sched with ckpt := { s.sched.ckpt with run := 1 } } }
     u.mustLeave (gkey 1 0) (gi 0) = true ∧ (at0 (exec (.go ⟨0, none⟩ 9) u)).ctl.selfq = [.stopreq ⟨0, none⟩ 9]) ∧
    (let t := at0 (exec (.exitdone ⟨0, none⟩ 9) (stPh .held))
     (t.groups.map (·.2.phase), t.grids.map (·.2.fin)) = ([.gone], [1])) ∧
    (∀ p ∈ [GPhase.saved 4, .reserved (some 4)], let t := at0 (exec (.exitdone ⟨0, none⟩ 9) (stPh p))
     (t.groups.map (·.2.phase), t.grids.map (·.2.fin)) = ([.gone], [1])) ∧ (gi 0).wks = [] ∧
    (∀ j, j < gw.desc.warps → ({ gi 0 with retired := 3 } : Group).retired.getLsbD j = true) := by decide +kernel

/-! ### Host -/

def hup (b : Bool) : HostPort := { State.reset.host with up := b, wins := [(14, { ptroot := 0x1000, en := b, part := 0, vbase := 0 })] }
def stH (b : Bool) : State := { stC wp with host := { hup b with up := true } }
/-- Offset in the HDM range of a byte of host window 14. -/
def h14 (off : Nat) : Nat := 0x40000000 * (14 + 1) + off
/-- Queue 255's ring through the command window: what is written is read back (11 R321). -/
theorem witness_host_access : (stH true).host.up = true ∧ ((stH true).hostWin 14).en = true ∧ ((stH false).hostWin 14).en = false ∧
    (let off := 255 * 0x40000 + 8
     let t := at0 (exec (.hostWindowAccess 5 (5 + off) (.write (leBytes 8 0x1122334455667788))) (stH true))
     nextIs (exec (.hostWindowAccess 5 (5 + off) (.write (leBytes 8 0x1122334455667788))) (stH true)) ((stH true).windowWrite off 0x1122334455667788) = true ∧
     (at0 (exec (.hostWindowAccess 5 (5 + (off + 3)) (.read 2)) t)).ctl.out = [.windowData [0x55, 0x44]]) ∧
    (at0 (exec (.hostWindowAccess 0 (h14 0x40) (.atomic 0 7 5 0)) (stH true))).ops.map (fun o => o.2.elems.map fun e => (e.va, e.place.isSome)) = [[(0x40, true)]] ∧
    (at0 (exec (.hostWindowAccess 0 (h14 0x43) (.read 9)) (stH true))).ops.map (fun o => o.2.elems.map fun e => (e.va, e.n)) = [[(0x43, 5), (0x48, 4)]] ∧
    (at0 (exec (.hostWindowAccess 0 (h14 0x43) (.read 2)) (stH false))).ctl.out = [.windowData [0, 0]] ∧
    nextIs (exec (.hostWindowAccess 0 (h14 0x43) (.write [1])) (stH false)) (stH false) = true ∧
    (stH false).mgmt.stage = 9 ∧ nextIs (exec (.hostWindowAccess 0 (h14 0x40000000) (.read 1)) (stH true)) (stH true) = true ∧
    (at0 (exec (.nonPostedRequest 7) (stH false))).ctl.out = [.unsupported 7] := by decide +kernel
/-- An element of a load that the host owes; a store in the buffer. -/
def opHst : Op := { opLd with elems := [{ Elem.virt 0 4 8 0 0 8 with place := some (.host 0x100 false), sent := true }] }
def hreq (n : Nat) (w : Option Who) : HostReq := { op := 4, elems := [0], n := n, warp := w, addr := 0x100 }
def hw (who : Who) (gk : Nat) : HostWr := { addr := 0x140, data := [1, 2], mask := 3, who := who, gk := gk, op := 99, elems := [0] }
theorem witness_host_answers : (let s := { stC { wp with sb := [(1, 1)] } with ops := [(4, opHst)], host := { hup true with reqs := [(6, hreq 8 none)] } }
    let t := { s with host := { s.host with reqs := [] } }
    nextIs (exec (.hostPortResponse (.readData 6 [0xFF, 1])) s) (((t.hostAccept 6).hostRead (hreq 8 none) [0xFF, 1]).flushStores) = true ∧
    nextIs (exec (.hostPortResponse (.atomicOld 6 9)) s) (t.hostAtom (hreq 8 none) 9) = true ∧
    kget s.ops 4 = some opHst ∧ opHst.elems[0]? = some { Elem.virt 0 4 8 0 0 8 with place := some (.host 0x100 false), sent := true } ∧
    ((kget (t.hostRead (hreq 8 none) [9]).ops 4).map fun o => o.elems.map (·.got)) = some [some 9]) ∧
    (let x := { md with hst := { last := none, unacc := true, rd := some 6 } }
     let s := { stM x with host := { hup true with reqs := [(6, hreq 0 (some (.mend 0)))] } }
     s.host.loose = [] ∧ nextIs (exec (.hostPortResponse (.flushed 6)) s) ({ s with host := hup true }.setMend 0 { x with hst := HostStores.none }) = true) ∧
    (let s := { stM md with host := { hup true with buf := [hw (.host 0) 0] } }
     (at0 (exec (.hostPortResponse .drained) s)).ctl.out.take 1 = [.hostWrite 0x140 [1, 2] 3] ∧ (at0 (exec (.hostPortResponse .drained) s)).host.buf = [] ∧
       ((at0 (exec (.hostPortResponse .drained) s)).host.loose.map fun l => (l.num, l.op)) = [(0, 99)] ∧
       s.flushStores = s ∧ ((at0 (exec (.hostPortResponse .drained) s)).host.reqs.map fun r => (r.2.n, r.2.addr)) = [(0, 0x140)]) := by decide +kernel
theorem witness_recalled : (let s := { stLs md 1 100 with host := hup true, mem := { memL 1 100 with
      hostLines := [11], secs := [(0, sec1 false false)], leases := [(0, { bits := leaseBits 1 9, last := 0 })] } }
    (2 * 5 + 1) ∈ s.mem.hostLines ∧ (s.mem.leaseAt (5 * 128)).live = true ∧ s.mem.valid (5 * 128) = true ∧ (s.mem.sec (5 * 128 / 4096)).lost = false ∧
    s.mem.bytes.wf = true ∧ s.fab.inHeld = [] ∧
    (let t := at0 (exec (.hostPortResponse (.birsp 5 (some (List.replicate 128 9)))) s)
     t.mem.hostLines = [] ∧ t.mem.valid 640 = true ∧ (t.mem.byte 640, t.mem.byte 767, t.mem.byte 768) = (9, 9, 0)) ∧
    (let u := { s with grids := [(1, { gr with linings := [(0x280, { ln false with home := 0x280 })] })] }
     let t := at0 (exec (.hostPortResponse (.birsp 5 (some (List.replicate 128 9)))) u)
     (u.inLining false 640, u.inLining false 767, t.mem.byte 640, t.mem.byte 767) = (true, false, 0, 9))) := by decide +kernel
/-- A store and a load for the host meet a link that is down (17 R424). -/
theorem witness_sent_while_down : (let s := { stC { wp with sb := [(1, 1)] } with host := { hup false with loss := 0xFFFFFFFF }, ops := [(4, opHst)] }
    let o : Op := { opHst with kind := .acc .store }
    let xs := opHst.elems.map fun e => (0, e)
    s.host.up = false ∧ xs ≠ [] ∧ opHst.isStore = false ∧ o.isStore = true ∧ kget s.groups o.gk ≠ none ∧
    (let t := s.sendHost 4 o xs
     (t.host.loss, t.host.buf, t.groups.map (·.2.hostMark)) = (0xFFFFFFFF, [], [true])) ∧
    (({ s with host := { s.host with loss := 0xFFFFFFFE } } : State).sendHost 4 o xs).host.loss = 0xFFFFFFFF) := by decide +kernel
theorem witness_link_down : (let s := { st wp with groups := [(gkey 1 0, gp), (gkey 1 1, gp)], host := { hup true with loss := 0xFFFFFFFE, buf := [hw (.warp 0) (gkey 1 0)] } }
    s.host.loss.toNat + s.host.buf.length < 2 ^ 32 ∧
    (let t := at0 (exec .hostLinkDown s)
     (t.host.up, t.host.buf, t.host.loss) = (false, [], 0xFFFFFFFF) ∧ t.groups.map (·.2.hostMark) = [true, false] ∧ t.host.log = [(0xFE, 0x140)]) ∧
    nextIs (exec .hostLinkDown { s with host := hup false }) { s with host := hup false } = true ∧ nextIs (exec .hostLinkUp s) s = true ∧
    ((at0 (exec .hostLinkUp { stC wp with host := hup false })).host.up, (stC wp).mgmt.stage) = (true, 9)) := by decide +kernel

/-! ### Kagon -/

/-- A request of an OP from device 5 at port 15, which is up, for 64 bytes at 0x40 of a local page; entry 15 of the range table of 5
grants everything there. -/
def fl (op : Nat) : Flit :=
  { op := BitVec.ofNat 8 op, dest := 0, source := 5, rv := true, carve := false, seam := false, size := 2, tag := 4095, addr := 0x10040,
    typ := 7, aop := 0, data := leBytes 64 (2 ^ 511 + 3), mask := 0xFFFFFFFFFFFF0FFF, seamid := 0 }
def kup : KPort := { KPort.reset with up := true }
def stK : State :=
  { stC wp with grids := [], fab := { Fabric.reset with ports := [(15, kup)], range := [(5 * 16 + 15, BitVec.ofNat 128 (2 ^ 127 + 2 ^ 35 + 2 ^ 6 + 7))] } }
theorem witness_peer_requests : (∀ op ∈ [1, 2, 3, 4, 5], Arrives stK 15 (fl op) (BitVec.ofNat 8 op) ∧ AtHome stK (fl op)) ∧ stK.grids = [] ∧ stK.mem.bytes.wf = true ∧
    nextIs (exec (.flitRead 15 (fl 1)) stK) (answered (stK.flitIn 15 (fl 1)) 15 (fl 1) 0x10 ((List.range 64).map fun i => stK.mem.byte (0x10040 + i))) = true ∧
    (let t := at0 (exec (.flitWrite 15 (fl 2)) stK)
     t.ctl.out = stK.ctl.out ++ [.flit 15 (answerTo stK 15 (fl 2) 0x11 [])] ∧
       (t.mem.byte 0x10040, t.mem.byte 0x10041, t.mem.byte 0x1007F) = (3, 0, 0x80)) ∧
    (let old := stK.placeRd (.loc 0x10040 .loc) 8
     let wr := fun (op : Nat) => (stK.flitIn 15 (fl op)).placeWr (.loc 0x10040 .loc) 8 (atomNew 0 7 old (leNat ((fl 3).data.take 8)) (leNat (((fl 3).data.drop 8).take 8)))
     nextIs (exec (.atomicWithResult 15 (fl 3)) stK) (answered (wr 3) 15 (fl 3) 0x12 (leBytes 8 old)) = true ∧
     nextIs (exec (.atomicWithoutResult 15 (fl 4)) stK) (answered (wr 4) 15 (fl 4) 0x11 []) = true ∧ ((wr 3).mem.byte 0x10040) = 3) ∧
    (let t := at0 (exec (.reduction 15 (fl 5)) stK)
     t.ctl.out = stK.ctl.out ++ [.flit 15 (answerTo stK 15 (fl 5) 0x11 [])] ∧ (t.mem.byte 0x10040, t.mem.byte 0x1007F) = (3, 0x80)) := by
  unfold Arrives AtHome; decide +kernel
theorem witness_peer_turned_away : (let r := fun (op : Nat) (f : Flit) (s : State) => match op with
      | 1 => exec (.flitRead 15 f) s
      | 2 => exec (.flitWrite 15 f) s
      | 3 => exec (.atomicWithResult 15 f) s
      | 4 => exec (.atomicWithoutResult 15 f) s
      | _ => exec (.reduction 15 f) s
    let bad := fun (op : Nat) => { fl op with source := 6 }
    let odd := fun (op : Nat) => { fl op with typ := 31 }
    (∀ op ∈ [1, 2, 3, 4, 5], (fl op).seq = (stK.kport 15).rx ∧
      nextIs (r op { fl op with dest := 1 } stK) ((stK.flitIn 15 { fl op with dest := 1 }).flitDrop 15) = true ∧
      (stK.rangeOk (bad op) = false ∧ nextIs (r op (bad op) stK) (answered (stK.flitIn 15 (bad op)) 15 (bad op) 0x14 [0x22]) = true)) ∧
    (∀ op ∈ [3, 4, 5], flitKnown (odd op) = false ∧ nextIs (r op (odd op) stK) (answered (stK.flitIn 15 (odd op)) 15 (odd op) 0x13 []) = true) ∧
    (let t := stK.flitIn 15 (fl 2); (t.kport 15).rx = 1 ∧ ∀ op ∈ [1, 2, 3, 4, 5], nextIs (r op (fl op) t) t = true) ∧
    (∀ op ∈ [1, 2, 3, 4, 5], nextIs (r op (fl (op % 5 + 1)) stK) stK = true ∧ nextIs (r op { fl op with seq := 1024 } stK) stK = true ∧
      (let t := at0 (r op { fl op with seq := 1023 } stK); ((t.kport 15).early.map (·.1), t.ctl.out) = ([1023], stK.ctl.out)))) ∧
    ((at0 (exec (.flitDiscard ⟨15, 0⟩) { stK with fab := { stK.fab with ports := [(15, { kup with discard := 255 })] } })).kport 15).discard = 255 := by decide +kernel
/-- A flit waits at port 15 for the one before it: both are passed on in their order (11 R330). -/
theorem witness_flit_turn : (let s := at0 (exec (.flitWrite 15 { fl 2 with seq := 1 }) stK)
    kget (s.kport 15).early 1 = some (.flitWrite 15 { fl 2 with seq := 1 }) ∧
    (let t := s.linkIn { port := 15, seq := 0 }
     (t.ctl.selfq.length, (t.kport 15).rx, (t.kport 15).early) = (1, 1, []) ∧ (stK.linkIn { port := 15, seq := 0 }).ctl.selfq = []) ∧
    (at0 (exec (.flitDiscard ⟨15, 0⟩) s)).ctl.selfq.length = 1 ∧
    nextIs (exec (.flitDiscard ⟨14, 0⟩) stK) stK = true) := by decide +kernel
/-- Request 4095 of plane 15, to device 5, for element 0 of operation 4, whose place is 0x44 there. -/
def kr (op : Nat) : KReq := { slice := 3, flit := { fl op with dest := 5, source := 0, addr := 0x40, size := 0 }, op := some 4, elems := [0], back := none }
def eK : Elem := { Elem.virt 0 4 8 2 0 8 with place := some (.peer 5 0x44 false false), sent := true }
def opK : Op := { opLd with elems := [eK, { eK with lane := 2 }] }
def stA (op : Nat) : State := { stC { wp with sb := [(1, 1)] } with ops := [(4, opK)], fab := { stK.fab with reqs := [(15 * 4096 + 4095, kr op)] } }
theorem witness_peer_answers : (∀ e ∈ [(0x10, 1), (0x11, 4), (0x11, 5), (0x11, 2), (0x12, 3), (0x13, 3), (0x13, 4), (0x13, 5), (0x14, 1)],
      FitsRequest (stA e.2) 15 (fl e.1) (BitVec.ofNat 8 e.1) (kr e.2) 4 0 opK eK) ∧
    nextIs (exec (.readData 15 (fl 0x10)) (stA 1)) (elemGot (withoutReq (stA 1) 15 (fl 0x10)) 4 0 eK 0).sendHeld = true ∧
    (∀ op ∈ [4, 5], nextIs (exec (.writeDone 15 (fl 0x11)) (stA op)) (elemGot ((withoutReq (stA op) 15 (fl 0x11)).pokeRemote 4 opK eK none) 4 0 eK 0).sendHeld = true) ∧
    nextIs (exec (.writeDone 15 (fl 0x11)) (stA 2)) (elemGot ((withoutReq (stA 2) 15 (fl 0x11)).pokeRemote 4 opK eK (some 2)) 4 0 eK 0).sendHeld = true ∧
    nextIs (exec (.atomicResult 15 (fl 0x12)) (stA 3)) (elemGot ((withoutReq (stA 3) 15 (fl 0x12)).pokeRemote 4 opK eK (some (atomNew 0 7 3 2 0))) 4 0 eK 3).sendHeld = true ∧
    (∀ op ∈ [3, 4, 5], nextIs (exec (.notImplemented 15 (fl 0x13)) (stA op)) ((withoutReq (stA op) 15 (fl 0x13)).reqFail (kr op) 0x23).sendHeld = true) ∧
    opK.l1Core = some 0 ∧ ((stA 2).core 0).fresh (.peer 5 0x44 false false) 4 = true ∧
    nextIs (exec (.refused 15 { fl 0x14 with data := [0x22] }) (stA 1)) ((withoutReq (stA 1) 15 (fl 0x14)).reqFail (kr 1) 0x22).sendHeld = true ∧
    (let o1 : Op := { opK with elems := [eK] }
     let u : State := { stA 1 with ops := [(4, o1)] }
     let end_ := fun (o : Op) => { o with elems := setAt o.elems 0 { eK with sent := false }, fails := [failedOf 0x22 5 [eK]] }
     opK.gathers = true ∧ opK.fails = [] ∧ opK.hold = [] ∧ opK.want = [] ∧
     decide (u.reqFail (kr 1) 0x22 = u.failOp 4 (end_ o1) 0x22 5 eK.va o1.progress (elemLanes [eK])) = true ∧
     decide ((stA 1).reqFail (kr 1) 0x22 = { stA 1 with ops := kset (stA 1).ops 4 (end_ opK) }) = true) ∧
    nextIs (exec (.writeDone 15 (fl 0x11)) stK) (stK.flitIn 15 (fl 0x11)) = true ∧ nextIs (exec (.readData 15 (fl 0x10)) stK) (stK.flitIn 15 (fl 0x10)) = true := by
  unfold FitsRequest; decide +kernel

def prt (l : List Nat) : KV KPort := l.map fun i => (i, kup)
def stPt (l : List Nat) : State := { stM md with fab := { Fabric.reset with ports := prt l } }
theorem witness_remap : (let s := hostUp (stPt [2, 15])
    nextIs (exec (.planeMapUpdate 15 2) (stPt [2, 15])) (stPt [2, 15]) = true ∧ s.host.up = true ∧ s.fab.planeUp 15 = true ∧ nextIs (exec (.planeMapUpdate 15 2) s) { s with fab := { s.fab with busy := true, slice := 15, plane := 2 } } = true ∧
    nextIs (exec (.planeMapUpdate 15 3) s) s = true ∧
    (let u := { s with fab := { s.fab with busy := true, slice := 15, plane := 2 } }
     nextIs (exec (.planeMapUpdate 0 2) u) u = true ∧
     (let t := at0 (exec .planeRemapCommit u); (t.fab.busy, planeAt t.fab 15, planeAt t.fab 14, t.fab.rv) = (false, 2, 14, 0x8000)) ∧
     (let v := { u with fab := { u.fab with reqs := [(9, { kr 1 with slice := 15 })] } }; nextIs (exec .planeRemapCommit v) v = true))) ∧
    (let t := at0 (exec (.kagonPortDown 15) (stPt [2, 15]))
     ((t.kport 15).up, t.kport 2, planeAt t.fab 15, planeAt t.fab 2, t.fab.rv) = (false, kup, 2, 2, 0x8000)) := by decide +kernel
theorem witness_timeout : 
    (let s := { stPt [15] with mends := [(0, { md with cycles := 2 ^ 21 })], fab := { (stPt [15]).fab with reqs := [(15 * 4096 + 4095, { kr 2 with op := none }), (16 * 4096, kr 1)] } }
    let t := { s with fab := { s.fab with reqs := [(16 * 4096, kr 1)], burnt := [(15 * 4096 + 4095, (0, 2 ^ 21 + 2 ^ 22))] } }
    let early := { s with mends := [(0, { md with cycles := 2 ^ 21 - 1 })] }
    kget s.fab.reqs (15 * 4096 + 4095) = some { kr 2 with op := none } ∧
    nextIs (exec (.kagonRequestTimeout 15 4095) s) t = true ∧ nextIs (exec (.kagonRequestTimeout 15 4095) early) early = true ∧
    t.tagBurnt (15 * 4096 + 4095) = true ∧ { t with mends := [(0, { md with cycles := 2 ^ 23 })] }.tagBurnt (15 * 4096 + 4095) = false ∧
    kget t.fab.burnt (15 * 4096 + 4095) = some (0, 2 ^ 21 + 2 ^ 22)) := by decide +kernel
/-- A message of seam 3 to device 5 that left on plane 15 leaves again on plane 2, under the other route version (17 R420). -/
theorem witness_messages_again : (let m : KReq := { slice := 15, flit := { fl 0x20 with dest := 5, source := 0, data := seamPayload 7 3 0 }, op := none, elems := [], back := none }
    let s := { stPt [2, 15] with fab := { (stPt [2, 15]).fab with msgs := [(15, m)] } }
    let t := at0 (exec (.kagonPortDown 15) s)
    planeAt s.fab 15 = 15 ∧ t.fab.msgs = [(2, m)] ∧ t.fab.held = [] ∧ t.ctl.out = s.ctl.out ++ [.flit 2 { m.flit with rv := true }]) := by decide +kernel
def stPu (r : Nat) (stage : Nat) (asserted untrained : Bool) : State :=
  { stPt [] with fab := { Fabric.reset with ports := [(15, { KPort.reset with retired := BitVec.ofNat 8 r })] },
                 mgmt := { Mgmt.reset with stage := BitVec.ofNat 8 stage, asserted := asserted, untrained := untrained } }
theorem witness_port_up : (let s := stPu 0xF0 6 false false
    lanesUp (s.kport 15) = 4 ∧ s.mgmt.fusePlanes.getLsbD 15 = false ∧ s.fab.held = [] ∧ s.mgmt.asserted = false ∧ 6 ≤ s.mgmt.stage.toNat ∧
    s.mgmt.untrained = false ∧ ((at0 (exec (.kagonPortUp 15) s)).kport 15).up = true) ∧
    (∀ u ∈ [stPu 0xF1 6 false false, stPu 0xF0 5 false false, stPu 0xF0 6 true false, stPu 0xF0 6 false true], nextIs (exec (.kagonPortUp 15) u) u = true) := by
  decide +kernel
/-- A score of 100 with 64 bursts becomes 152 (17 R417). -/
def kh (age : Nat) : KPort := { kup with h := List.replicate 8 100, ages := List.replicate 8 age }
theorem witness_health : (((kh 1000).health 7 64).h, ((kh 1000).health 7 64).recal, ((kh 999).health 7 64).retired) = (List.replicate 7 100 ++ [0], 0x80, 0x80) ∧
    (((kh 5).health 7 40).h.getD 7 0, ((kh 5).health 7 40).retired) = (128, 0x80) ∧ ((kh 5).health 7 39).h.getD 7 0 = 127 ∧
    ({ kh 5 with retired := 0x80 }.health 7 64).h.getD 7 0 = 152 := by decide +kernel
def stN (p : KPort) (b : Option (Nat × Nat × Nat)) : State :=
  { stC wp with fab := { Fabric.reset with ports := [(15, p)], lnkBusy := b }, mgmt := { (stC wp).mgmt with session := true } }
theorem witness_lanes : Session (stN kup none) ∧
    ((at0 (exec (.laneHealthUpdate 15 [64, 64, 64, 64, 64]) (stN (kh 9) none))).kport 15).up = false ∧
    ((at0 (exec (.laneHealthUpdate 15 [64, 64, 64, 64]) (stN (kh 9) none))).kport 15).up = true ∧
    ((at0 (exec (.lnkctlRecalibrate 15 7) (stN kup none))).kport 15).recal = 0x80 ∧ (at0 (exec (.lnkctlRecalibrate 15 7) (stN kup none))).fab.lnkBusy = some (15, 7, 0) ∧
    ((at0 (exec (.lnkctlRecalibrate 15 7) (stN { kup with retired := 0xF } none))).kport 15).up = false ∧
    ((at0 (exec (.lnkctlRetire 15 7) (stN kup none))).kport 15).retired = 0x80 ∧
    (let s := stN { kup with retired := 0xF } none; nextIs (exec (.lnkctlRetire 15 7) s) s = true ∧ nextIs (exec (.lnkctlRestore 15 7) s) s = true) ∧
    (at0 (exec (.lnkctlRestore 15 7) (stN { kup with retired := 0x80 } none))).fab.lnkBusy = some (15, 7, 2) ∧
    (let s := stN kup (some (0, 0, 0)); nextIs (exec (.lnkctlRecalibrate 15 7) s) s = true ∧ nextIs (exec (.lnkctlRetire 15 7) s) s = true) ∧
    (let s := stN kup (some (15, 7, 0)); (s.kport 15).recal.getLsbD 7 = false ∧ s.fab.lnkBusy ≠ some (15, 7, 2) ∧
      ∀ ok, nextIs (exec (.laneRetrainDone 15 7 ok) s) s = true) ∧
    (∀ ok, ((at0 (exec (.laneRetrainDone 15 7 ok) (stN { kup with retired := 0x80 } (some (15, 7, 2))))).kport 15).retired = if ok then 0 else 0x80) ∧
    (∀ e ∈ [(2, true, 0), (0, true, 0x80), (0, false, 0x80)],
      (let t := at0 (exec (.laneRetrainDone 15 7 e.2.1) (stN { kup with retired := 0x80, recal := 0x80 } (some (15, 7, e.1))))
       ((t.kport 15).retired.toNat, (t.kport 15).recal, t.fab.lnkBusy) = (e.2.2, 0, none))) ∧
    (∀ e ∈ [(9, 14, true), (9, 15, false), (8, 15, true)],
      ((at0 (exec (.flitCrcFailure ⟨15, 9⟩) (stN { kup with crc := [(e.1, e.2.1)] } none))).kport 15).up = e.2.2) ∧
    nextIs (exec (.flitCrcFailure ⟨14, 9⟩) (stN kup none)) (stN kup none) = true := by
  unfold Session; decide +kernel

/-! ### Firmware, partitions, checkpoints -/

def fm (c : Nat) : FwMsg := { code := BitVec.ofNat 8 c, body := (List.range 23).map fun i => BitVec.ofNat 8 (i + 1), peer := 5, core := 3 }
def mdF : Mend := { md with finPos := 63 }
theorem witness_firmware : mdF.fwWait = [] ∧ mdF.sram.wf = true ∧ mdF.slotValid fwIn 63 = false ∧
    (let t := { mdF.fillSlot fwIn 63 (fwBytes (fm 0x80)) with finPos := 0 }
     nextIs (exec (.firmwareMessage 0 (fm 0x80)) (stM mdF)) ((stM mdF).setMend 0 t) = true ∧
     ((List.range 32).map fun i => (mget t.sram (fwIn + 32 * 63 + i)).toNat) = [0x80] ++ (List.range 23).map (· + 1) ++ [5, 0, 3, 0, 0, 0, 0, 0x80]) ∧
    (∀ e ∈ [(1, exec (.migreq 0 (fm 1))), (2, exec (.migdone 0 (fm 2))), (3, exec (.mignak 0 (fm 3)))],
      nextIs (e.2 (stM mdF)) ((stM mdF).setMend 0 { mdF.fillSlot fwIn 63 (fwBytes (fm e.1)) with finPos := 0 }) = true) ∧
    nextIs (exec (.firmwareMessage 0 (fm 0x7F)) (stM mdF)) (stM mdF) = true ∧ nextIs (exec (.migreq 0 (fm 2)) (stM mdF)) (stM mdF) = true ∧
    (let s := { stM mdF with fab := { Fabric.reset with ports := [(15, { kup with rx := 2047 })] } }
     let m := { fm 0x80 with link := some ⟨15, 2047⟩ }
     (s.kport 15).up = true ∧ (2047 : BitVec 11) = (s.kport 15).rx ∧
       (let t := at0 (exec (.firmwareMessage 0 m) s); ((t.kport 15).rx, t.mends.map (·.2.finPos)) = (0, [0])) ∧
       (let t := at0 (exec (.firmwareMessage 0 { m with link := some ⟨15, 0⟩ }) s); ((t.kport 15).early.map (·.1), t.mends.map (·.2.finPos)) = ([0], [63]))) := by
  decide +kernel
def hd (b : Bool) : MigHold := { page := 5, early := [4], flits := [(15, fl 1)], held := b }
def mdH : Mend := { md with mig := some (hd false), migtgt := BitVec.ofNat 64 (7 * 2 ^ 45 + 9 * 2 ^ 16) }
def fws (n : Nat) : List Forward := (List.range n).map fun i => { page := 2 ^ 29 - 1 - i, peer := 1, topg := 2 }
def stMg (m : Mend) (n : Nat) : State := { stM m with mem := { MemSys.reset with fwds := fws n } }
theorem witness_migration : nextIs (exec (.migctlHold 0 5) (stMg md 0)) ((stMg md 0).setMend 0 { md with mig := some { hd false with early := [], flits := [] } }) = true ∧
    nextIs (exec (.holdDrained 0) (stMg mdH 0)) ((stMg mdH 0).setMend 0 { mdH with mig := some (hd true) }) = true ∧
    (let s := { stMg mdH 0 with ops := [(4, { opLd with elems := [{ Elem.virt 0 4 8 0 0 0 with place := some (.loc 0x50000 .loc) }] })] }
     nextIs (exec (.holdDrained 0) s) s = true) ∧
    (let fw : Forward := { page := 5, peer := 7, topg := 9 }
     nextIs (exec (.migctlForward 0) (stMg mdH 255)) ((hd false).flits.foldl (fun s f => s.forwardFlit fw f)
       { (stMg mdH 255).setMend 0 { mdH with mig := none } with mem := { MemSys.reset with fwds := fws 255 ++ [fw] } }) = true) ∧
    nextIs (exec (.migctlForward 0) (stMg mdH 256)) ((stMg mdH 256).setMend 0 { mdH with full := true }) = true ∧
    nextIs (exec (.migctlEndHold 0) (stMg mdH 0)) ((hd false).flits.foldl (fun s f => s.flitGo f.1 f.2) ((stMg mdH 0).setMend 0 { mdH with mig := none })) = true ∧
    ((at0 (exec (.migctlClear 0 (2 ^ 29 - 1)) (stMg md 2))).mem.fwds.map (·.page)) = [2 ^ 29 - 2] ∧ (stMg mdH 0).fab.anyUp = false ∧
    (stMg mdH 0).forwardFlit { page := 1, peer := 7, topg := 9 } (15, fl 1) = (stMg mdH 0).answer 15 (fl 1) 0x14 [0x24] := by decide +kernel

/-- Partition 7, whose key is installed, beside a live partition 0 with cluster 0. -/
def p7 (cl hbm : Nat) (key : Bool) (st : Nat) : Part := { Part.reset with clusters := BitVec.ofNat 64 cl, hbm := BitVec.ofNat 11 hbm, key := key, state := BitVec.ofNat 2 st }
def stPa (r : Part) : State :=
  { hostUp (stC wp) with grids := [], groups := [], warps := [], mgmt := { (stC wp).mgmt with stage := 9 },
                         sched := { Sched.reset with parts := [(0, { pt0 with hbm := 1000 }), (7, r)] } }
theorem witness_partition_start : ((at0 (exec (.partitionStart 7) (stPa (p7 1 0 true 0)))).part 7).err = 1 ∧
    ((at0 (exec (.partitionStart 7) (stPa (p7 2 537 true 0)))).part 7).err = 2 ∧ ((at0 (exec (.partitionStart 7) (stPa (p7 2 536 false 0)))).part 7).err = 3 ∧
    (let t := at0 (exec (.partitionStart 7) (stPa (p7 2 536 true 0)))
     t.part 7 = p7 2 536 true 1 ∧ t.warps.map (·.1) = [4, 5, 6, 7].map supKey) ∧
    ((at0 (exec (.partitionReset 7) (stPa (p7 2 0 true 2)))).part 7).err = 5 ∧
    nextIs (exec (.partitionReset 7) (stPa (p7 2 0 true 1))) (((stPa (p7 2 0 true 1)).modPart 7 fun r => { r with err := 0 }).resetPart 7) = true ∧
    ((at0 (exec (.partitionStop 7) (stPa (p7 2 0 true 1)))).part 7).state = 0 ∧
    (let s := stPa (p7 2 0 true 1); ((at0 (exec (.partitionStop 7) { s with sched := { s.sched with queues := [(255, { qq with part := 7 })] } })).part 7).err = 4) ∧
    (let s := { stPa (p7 2 0 true 1) with host := State.reset.host }
     nextIs (exec (.partitionStart 7) s) s = true ∧ nextIs (exec (.partitionStop 7) s) s = true) := by
  decide +kernel
/-- A reset of partition 7 ends once its grid has left; a carve page of it is gone then. -/
theorem witness_partition_reset : (let s := stPa (p7 2 0 true 2)
    s.resetQuiet 7 = true ∧ ((s.resetEnd 7).part 7).state = 1 ∧ (s.resetEnd 7).warps.map (·.1) = [4, 5, 6, 7].map supKey ∧
    ({ s with grids := [(1, { gr with part := 7 })] } : State).resetQuiet 7 = false ∧
    (((stPa (p7 2 0 true 1)).resetPart 7).part 7).state = 2) := by decide +kernel
theorem witness_keys : (let s := stN kup none
    let t := at0 (exec (.keyInstall 7 5) s)
    (kget t.mgmt.keys 7, (t.part 7).key) = (some 5, true) ∧ (at0 (exec (.keyInstall 8 5) s)).mgmt.keys = [(8, 5)] ∧
    (at0 (exec (.keyInstall 9 5) s)).ctl.out = [.mgmtError] ∧ (at0 (exec (.keyInstall 0 5) (stC wp))).ctl.out = [.mgmtError]) := by decide +kernel
/-- A carrier of type 1 with hold-up and slots; the facts of a boot without its record. -/
def card (slots : Bool) (gib : Nat) : Card := { format := 0, ctype := 1, holdup := true, slots := slots, pmod := false, ckptGiB := gib, slotMiB := 64 }
def bf : BootFacts := { record := [], slotA := none, slotB := none, received := none, trained := 0xFFFF }
def stCk (status : Nat) (ok : Bool) (p : GPhase) : State :=
  { hostUp (stG { gw with nextg := 1, desc := { gw.desc with idem := true } }) with
    groups := [(gkey 1 0, gd .drain)].map fun e => (e.1, { e.2 with phase := p }),
    mgmt := { Mgmt.reset with card := some (card true (if ok then 1024 else 1023)) },
    sched := { (stG gw).sched with ckpt := { Sched.reset.ckpt with status := BitVec.ofNat 8 status, run := if status == 1 then 0x81 else 0 } } }
theorem witness_checkpoint : (stCk 0 false .run).flashOk = false ∧ (at0 (exec (.ckptAndStop 1) (stCk 0 false .run))).sched.ckpt.status = 3 ∧
    nextIs (exec (.ckptAndContinue 1) (stCk 1 true .run)) (stCk 1 true .run) = true ∧
    (at0 (exec (.ckptAndStop 1) (stCk 0 true .run))).groups.map (·.2.phase) = [.stopping .flush] ∧
    (let t := at0 (exec (.ckptAndContinue 0x81) (stCk 2 true (.saved 0)))
     (t.sched.ckpt.status, t.sched.ckpt.run, t.sched.ckpt.cont, (t.part 0).stopped) = (1, 0x81, true, true)) ∧
    (at0 (exec (.checkpointDone false) (stCk 1 true .run))).sched.ckpt.status = 4 ∧ (stCk 1 true .run).inParts 0x81 (gkey 1 0) = true ∧
    nextIs (exec (.checkpointDone true) (stCk 1 true .run)) (stCk 1 true .run) = true ∧
    (let t := at0 (exec (.checkpointDone true) (stCk 1 true (.saved 0)))
     t.sched.ckpt.status = 2 ∧ (t.sched.ckpt.image.map fun i => (i.parts, i.grids.map (·.1), i.groups.map (·.1))) = some (0x81, [1], [gkey 1 0])) ∧
    (let s := { stCk 1 true (.saved 0) with mem := { memL 1 100 with secs := [(5 * 2 ^ 18, sec1 true false), (5 * 2 ^ 18 + 1, sec1 true true), (6 * 2 ^ 18, sec1 true false)] } }
     s.partsDirty s.sched.ckpt.run = [5 * 2 ^ 18] ∧ ksorted s.mem.secs = true ∧
       (let t := at0 (exec (.checkpointDone true) s); (t.sched.ckpt.status, t.mem.preqs.map (·.2.addr)) = (1, [3 * 2 ^ 62 + 9 * 2 ^ 30]))) ∧
    (let s := { stCk 2 true .run with host := State.reset.host }
     nextIs (exec (.ckptAndStop 1) s) s = true ∧ nextIs (exec (.ckptAndContinue 1) s) s = true ∧ nextIs (exec (.ckptResume 1) s) s = true) := by decide +kernel
/-- Groups that can be flushed, can be saved, or neither (10 R319). -/
theorem witness_checkpoint_decision : (stCk 0 true .run).decideCkpt (gkey 1 0) = .flush ∧ (stDc .drain).decideCkpt (gkey 1 0) = .drain ∧
    ({ stDc .drain with grids := [(1, { gw with savevec := 8, nframe := 2 })] } : State).decideCkpt (gkey 1 0) = .save := by decide +kernel

/-! ### Boot and management -/

/-- An image of a version, whose signatures are good or not. -/
def ip (v : Nat) (ok : Bool) (code : List Byte) : FwPart := { sigOk := ok, digest := Config.sm3 code, version := v, code := code }
def im (v : Nat) (ok : Bool) : FwImg := { mend := ip v ok [1, 2], entry := 4, link := ip v ok [3] }
/-- An image that runs. -/
def imr : FwImg := { mend := { sigOk := true, digest := 0, version := 1, code := [1, 2] }, entry := 4, link := { sigOk := true, digest := 0, version := 1, code := [3] } }
/-- The identity record of that carrier: its first 32 bytes, and their digest. -/
def recHead : List Byte := leBytes 4 0x4B435231 ++ [0, 1, 3, 0] ++ leBytes 4 1024 ++ leBytes 4 64 ++ List.replicate 16 0
def rec64 : List Byte := recHead ++ leBytes 32 (Config.sm3 recHead).toNat
theorem leBytes_length : ∀ n x, (leBytes n x).length = n
  | 0, _ => rfl
  | n + 1, x => by simp [leBytes, leBytes_length n]
theorem rec64_card : cardOf rec64 = some (card true 1024) := by
  have h : recHead.length = 32 := by decide
  have e : rec64.length = 64 := by simp [rec64, h, leBytes_length]
  have d : rec64.drop 32 = leBytes 32 (Config.sm3 recHead).toNat := by rw [rec64, ← h, List.drop_left]
  have k : rec64.take 32 = recHead := by rw [rec64, ← h, List.take_left]
  have g : rec64 = recHead ++ leBytes 32 (Config.sm3 recHead).toNat := rfl
  simp only [cardOf, e, d, k]
  simp [g, recHead, leBytes, card, leNat, bitAt]
def bfs (a b r : Option FwImg) (tr : Nat) : BootFacts := { bf with record := rec64, slotA := a, slotB := b, received := r, trained := BitVec.ofNat 16 tr }
/-- What a boot meets: a record that reads, images that verify; and boots of a device whose record does not read. -/
theorem witness_boot : State.reset.mgmt.asserted = true ∧ State.reset.mgmt.slotA = none ∧ State.reset.mgmt.slotB = none ∧
    bf.noStacks = 0 ∧ State.reset.mgmt.fencedStacks = 0 ∧
    (∃ c, cardOf (bfs (some (im 1 true)) (some (im 2 true)) none 1).record = some c ∧ c.slots = true) ∧
    (∀ x ∈ [(im 1 true).mend, (im 1 true).link], x.sigOk = true ∧ x.digest = Config.sm3 x.code ∧ bf.rollback ≤ x.version) ∧
    (¬ ∃ c, cardOf bf.record = some c ∧ c.slots = true) ∧ (¬ ∀ x ∈ [(im 1 false).mend, (im 1 false).link], x.sigOk = true) := by
  refine ⟨by decide +kernel, by decide +kernel, by decide +kernel, rfl, by decide +kernel, ⟨card true 1024, rec64_card, rfl⟩, ?_, ?_, ?_⟩
  · simp [im, ip, bf]
  · rintro ⟨c, h, -⟩
    have : cardOf bf.record = none := by decide +kernel
    simp [this] at h
  · simp [im, ip]
def boot (f : BootFacts) : State := at0 (exec (.packageResetRelease f) State.reset)
theorem test_boot_waits : (let t := boot { bf with received := some (im 1 false) }; (t.mgmt.stage, t.mgmt.waiting, t.mgmt.fail) = (3, true, 1)) ∧
    (∀ e ∈ [(0x7FFF, 5, false, 2), (0, 4, true, 3)], let s : State := { State.reset with mgmt := { Mgmt.reset with carrier := some { bf with trained := BitVec.ofNat 16 e.1 } } }
      let t := s.bootLoad (im 1 true) false; (t.mgmt.stage.toNat, t.mgmt.waiting, t.mgmt.fail.toNat) = e.2) ∧
    nextIs (exec (.packageResetRelease bf) (stC wp)) (stC wp) = true := by decide +kernel
theorem test_newest_slot : ∀ v ∈ [(1, false), (2, false), (3, true)], ({ Mgmt.reset with slotA := some (im 2 true), slotB := some (im v.1 true) } : Mgmt).pickSlot.map (·.2) =
    some v.2 := by
  simp [Mgmt.pickSlot, Mgmt.accepted, Mgmt.accepts, Mgmt.verifies, im, ip, Mgmt.reset]
def stSt (n : Nat) (w : Bool) : State := { stM md with mgmt := { Mgmt.reset with asserted := false, session := true, stage := BitVec.ofNat 8 n, waiting := w, running := some imr, card := some (card true 1024) } }
def lk (p : Nat) : LinkFacts := { kagon := 0xFFFF, pool := BitVec.ofNat 8 p }
theorem witness_cfgdone : Session (stSt 5 false) ∧ (let t := at0 (exec (.cfgdoneGo true (lk 0x80)) (stSt 5 false))
      (t.mgmt.stage, t.mgmt.resume, t.mends.map fun m => (m.2.halted, m.2.pc)) = (7, true, List.replicate 4 (false, 4)) ∧ kget t.mem.pports 7 = some { up := true }) ∧
    (let t := at0 (exec (.cfgdoneGo false (lk 0)) (stSt 5 false)); (t.mgmt.stage, t.mgmt.waiting, t.mgmt.fail) = (6, true, 4)) ∧
    ((at0 (exec (.bootRetry (lk 1)) (stSt 6 true))).mgmt.stage, (at0 (exec (.bootRetry (lk 0)) (stSt 6 true))).mgmt.fail) = (7, 4) ∧
    (stSt 7 false).reserveHeld = false ∧ (at0 (exec (.bootRetry (lk 0)) (stSt 7 false))).mgmt.fail = 6 := by unfold Session; decide +kernel
/-- The reserve lease is held: 2,048 extents, Active, marked RESERVE. -/
def stRv2 : State :=
  { stSt 7 false with mem := { MemSys.reset with leases := (List.range Config.reserveLeases).map fun i => (i, { bits := BitVec.ofNat 128 (2 ^ 125 + 2 ^ 124), last := 0 }) } }
theorem kget_run (x : Lease) : ∀ (n a i : Nat), a ≤ i → i < a + n → kget ((List.range' a n).map fun j => (j, x)) i = some x
  | 0, a, i, h, k => by omega
  | n + 1, a, i, h, k => by
    simp only [List.range'_succ, List.map_cons, kget]
    split
    · rfl
    · exact kget_run x n (a + 1) i (by omega) (by omega)
/-- Stage LEASE ends with it. -/
theorem witness_reserve_lease : stRv2.reserveHeld = true ∧ stRv2.mgmt.resume = false ∧ stRv2.mgmt.stage = 7 := by
  refine ⟨?_, rfl, rfl⟩
  simp only [State.reserveHeld, List.all_eq_true, List.mem_range]
  intro i hi
  have h : stRv2.lease i = { bits := BitVec.ofNat 128 (2 ^ 125 + 2 ^ 124), last := 0 } := by
    have := kget_run { bits := BitVec.ofNat 128 (2 ^ 125 + 2 ^ 124), last := 0 } Config.reserveLeases 0 i (by omega) (by omega)
    rw [← List.range_eq_range'] at this
    simp only [State.lease, kgetD, stRv2, this, Option.getD_some]
  rw [h]; decide
theorem im_accepted (m : Mgmt) (v : Nat) (h : m.rollback ≤ v) : m.accepts (im v true) = true := by
  simp [Mgmt.accepts, Mgmt.verifies, im, ip, h]
/-- A chunk of n bytes from an offset, and the image that the bytes then make. -/
def ck (off n : Nat) (x : Option FwImg) : FwChunk := { off := off, data := List.replicate n 1, image := x }
theorem witness_fwimage : Session (stSt 3 true) ∧ (stSt 3 true).mgmt.accepts (im 1 true) = true ∧ (stSt 3 true).mgmt.accepts (im 1 false) = false ∧
    (at0 (exec (.fwimage true (ck 0 1024 (some (im 1 false)))) (stSt 3 true))).mgmt.fail = 1 ∧ (stSt 9 false).mgmt.hasSlots = true ∧
    ((at0 (exec (.fwimage true (ck 0 1025 none)) (stSt 3 true))).ctl.out = [.mgmtError] ∧
      (at0 (exec (.fwimage true (ck 0 2 none)) (stSt 3 true))).mgmt.flash = [(2, [(0, 1), (1, 1)])]) ∧
    (let t := at0 (exec (.fwimage true (ck (64 * 2 ^ 20 - 1) 1 (some imr))) (stSt 9 false))
     t.mgmt.slotA.isNone ∧ t.mgmt.slotB.map (·.mend.version) = some 1 ∧ t.mgmt.flash = [(1, [(64 * 2 ^ 20 - 1, 1)])]) ∧
    (stSt 9 false).mgmt.stage = 9 ∧ (stSt 9 false).mgmt.bootedB = false ∧ nextIs (exec (.fwimage false (ck 0 1 none)) (stSt 9 false)) (stSt 9 false) = true := by
  refine ⟨?_, im_accepted _ _ (by decide +kernel), ?_⟩ <;> first | (unfold Session; decide +kernel) | decide +kernel
/-- Stage RESUME: an image of partitions 0 and 7 is to be restored; a saved group can be placed; nothing is left to restore. -/
def stR8 (q : List Nat) : State :=
  { stGs with mgmt := { (stSt 8 false).mgmt with resume := true, resumeQ := q },
              sched := { stGs.sched with ckpt := (at0 (exec (.checkpointDone true) (stCk 1 true (.saved 0)))).sched.ckpt } }
theorem witness_resume : ({ stRv2 with mgmt := { stRv2.mgmt with resume := true }, sched := (stR8 []).sched } : State).toResume.isSome = true ∧
    (let s := stR8 [0, 7]
     s.mgmt.stage = 8 ∧ s.toResume.isSome = true ∧ (∀ p, p < 8 → s.resumesNow p = false)) ∧
    (let s := { stR8 [7] with mgmt := { (stR8 [7]).mgmt with fromImage := [gkey 1 0] } }
     s.resumesNow 0 = true ∧ s.bootAdvance.mgmt.resumeQ = [7]) ∧
    ((stR8 []).bootAdvance.mgmt.stage, (stR8 []).bootAdvance.host.up) = (9, true) := by decide +kernel
theorem witness_reset_and_power : (let s := { stSv with mgmt := { (stSv).mgmt with session := true, slotA := some (im 1 false), keys := [(0, 5)] } }
    let t := s.powerCycle
    t.mgmt.asserted = true ∧ t.mgmt.stage = 1 ∧ t.warps = [] ∧ t.mem.bytes = [] ∧ t.mgmt.slotA.isSome ∧ t.mgmt.keys = [] ∧ t.mgmt.session = false ∧
    Session s ∧ s.mgmt.carrier = none ∧ nextIs (exec .devreset { s with mgmt := { s.mgmt with slotA := none } }) { t with mgmt := { t.mgmt with slotA := none } } = true ∧
    (let t := at0 (exec .devreset { s with mgmt := { s.mgmt with carrier := some bf } })
     (t.mgmt.asserted, t.mgmt.stage, t.mgmt.fail, t.warps.length) = (false, 3, 1, 0))) ∧
    (stSv.sched.ckpt.status ≠ 1) ∧ (at0 (exec .inputPowerLoss stSv)).grids = [] ∧
    (let s := stCk 1 true (.saved 0)
     s.flashOk = true ∧ s.ckptQuiet s.sched.ckpt.run = true ∧ ((at0 (exec .inputPowerLoss s)).sched.ckpt.image.map (·.parts)) = some 0x81) := by
  unfold Session; decide +kernel
theorem witness_management : (let s := stSt 5 false
    s.mgmtReg 0 = some 0x05000000 ∧ (at0 (exec (.rdreg 0x150) s)).ctl.out = [.mgmt [0x20, 3, 0, 0]] ∧ s.mgmtReg 0x15 = none ∧
    (at0 (exec (.rdreg 0x15) s)).ctl.out = [.mgmtError] ∧ (at0 (exec (.getMeasurements { index := 1, nonce := some [1] }) (boot bf))).ctl.out.length = 1 ∧
    (at0 (exec (.getMeasurements { index := 1 }) s)).ctl.out = [.mgmtError] ∧ (at0 (exec (.setCertificate 7 [9]) s)).mgmt.certs = [(7, [9])] ∧
    (at0 (exec (.setCertificate 8 [9]) s)).ctl.out = [.mgmtError] ∧ (at0 (exec (.keyExchange true) (stC wp))).mgmt.session = true ∧
    (at0 (exec (.wrreg 0x153 0xFFFF1234) s)).mgmt.hcrit = 0x1234 ∧ (at0 (exec (.wrreg 0x10 0xFFFF) s)).mgmt.peernum = 0x3FFF ∧
    nextIs (exec (.wrreg 0x10 5) (stSt 9 false)) (stSt 9 false) = true ∧ (at0 (exec (.wrreg 0x150 5) (stC wp))).ctl.out = [.mgmtError] ∧
    (at0 (exec (.wrreg 0x310 0x80000000) { s with land := { s.land with flt := 0x180000001 } })).land.flt = 0x100000001) := by decide +kernel
theorem witness_restart : (let s := stSt 9 false
    let t := { s with mends := [(0, { md with halted := true, trapped := true })] }
    nextIs (exec (.mrestart 0 (BitVec.allOnes 32)) t) (s.setMend 0 md) = true ∧
    nextIs (exec (.mrestart 0 8) t) (s.setMend 0 { md with clause := none, pc := 8 }) = true ∧ nextIs (exec (.mrestart 0 8) s) s = true) := by decide +kernel
def stUp (v : Nat) (near : Bool) : State :=
  { stSt 9 false with mgmt := { (stSt 9 false).mgmt with slotB := some (im v true) },
                      mem := { MemSys.reset with leases := [(5, { bits := leaseBits 1 (if near then 1199999999 else 1200000000), last := 0 })] } }
theorem witness_update : (stUp 1 true).mgmt.accepted (if (stUp 1 true).mgmt.bootedB then (stUp 1 true).mgmt.slotA else (stUp 1 true).mgmt.slotB) = some (im 1 true) ∧
    (stUp 0 true).mgmt.accepted (stUp 0 true).mgmt.slotB = some (im 0 true) ∧ Session (stUp 1 false) ∧ kget (stUp 1 false).mends 0 = some md ∧
    (∀ near, (¬ ∃ e ∈ (stUp 1 near).mem.leases, e.2.live = true ∧ e.2.owner = 0 ∧ e.2.expiry < md.cycles + 1200000000) ↔ near = false) := by
  have a : ∀ v, (stUp v true).mgmt.accepted (some (im v true)) = some (im v true) := fun v => by
    simp [Mgmt.accepted, im_accepted, stUp, stSt, Mgmt.reset]
  exact ⟨a 1, a 0, by unfold Session; decide +kernel, rfl, by decide +kernel⟩
/-- An update waits for die 0, then puts its image there; while it does, MRESTART and MFWUPD do nothing; a device without slots has none. -/
def fu (stopped : Bool) : FwUpdate := { core := 0, img := imr, stopped := stopped }
def stMf (stopped : Bool) : State := { stSt 9 false with mgmt := { (stSt 9 false).mgmt with mfBusy := some (fu stopped) } }
theorem witness_update_runs : nextIs (exec (.mfwupd 0) (stMf false)) (stMf false) = true ∧ nextIs (exec (.mrestart 0 8) (stMf true)) (stMf true) = true ∧
    (stMf false).updateAdvance.mgmt.mfBusy = some (fu true) ∧
    (let t := (stMf true).updateAdvance; t.mgmt.mfBusy = none ∧ t.mends.map (fun m => (m.2.pc, m.2.code)) = [(4, [(0, 1), (1, 2)])]) ∧
    (stSt 9 false).mgmt.updates 0 = false ∧ (stMf true).mgmt.updates 0 = true ∧
    (let s := { stSt 9 false with mgmt := { (stSt 9 false).mgmt with card := some (card false 1024) } }
     s.mgmt.hasSlots = false ∧ (at0 (exec (.mfwupd 0) s)).mgmt.mfErr = 1) ∧ (stSt 9 false).mgmt.accepted none = none := by decide +kernel
def smp : Sample := { tdie := [1, 2, 3, 4], tcluster := [], thbm := List.replicate 16 0x348, vcore := [], vok := [], pmon := [], pmod := 0 }
theorem witness_sample : (let t := at0 (exec (.monitorSample smp) (stSt 5 false))
    (kget t.mgmt.tdie 3, kget t.mgmt.thbm 15, t.mgmt.fenceBusy) = (some 0x80000004, some 0x80000348, none)) := by decide +kernel
theorem witness_register_write : (let s := stH true
    nextIs (exec (.registerWrite (0x4010000 + 8 * 4095) 77) s) (s.windowWrite (0x4010000 + 8 * 4095) 77) = true ∧
    (s.windowWrite (0x4010000 + 8 * 4095) 77).count 4095 = 77 ∧ ksorted s.sched.counts = true) := by decide +kernel

/-! ### Memory errors and fences -/

/-- Sectors 15 and 31 are dirty; stack 1 holds frame 0. -/
def dirty (l : Bool) : Sector := { valid := true, dirty := true, lost := l }
def fr1 : Frame := { evict := false, stack := some 1 }
def stEr (m : Mend) : State :=
  { stSt 9 false with mends := [(0, m), (3, m)],
                      mem := { memL 1 100 with secs := [(14, sec1 false false), (15, dirty false), (31, dirty false)], frames := [(0, fr1), (1, { fr1 with stack := some 2 })] } }
theorem witness_errors : (let s := stEr md
    ((at0 (exec (.uncorrectableError (.l1 0 2047)) { s with cores := [(0, { Machine.Core.reset with l1 := [(2047, { bytes := [], kind := .loc, marked := false })] })] })).core 0).l1 = [] ∧
    s.mem.sec 14 = sec1 false false ∧ nextIs (exec (.uncorrectableError (.llc 255 14 true)) s) s = true ∧ nextIs (exec (.uncorrectableError (.hbm 14)) s) s = true ∧
    s.mem.sec 15 = dirty false ∧
    (let t := at0 (exec (.uncorrectableError (.llc 255 15 true)) s)
     t.mem.sec 15 = dirty true ∧ t.mem.sec 31 = dirty false ∧ (t.mends.map fun m => mnum m.2.sram (faultRing + 29) 3) = [0, 0x8050FF]) ∧
    (at0 (exec (.uncorrectableError (.carve 7)) s)).mem.lostCarve = [7] ∧ 7 ∉ s.mem.lostCarve ∧ opIdx.isAcc = false ∧
    (let u := { stC wp with ops := [(3, opIdx)] }
     ∀ off, (kget (at0 (exec (.uncorrectableError (.async 3 off)) u)).grids 1).map (·.killed) = some (some 0x117))) := by
  refine ⟨by decide +kernel, by decide +kernel, by decide +kernel, by decide +kernel, by decide +kernel, by decide +kernel, by decide +kernel, by decide +kernel,
    by decide +kernel, fun off => ?_⟩
  cases off <;> rfl
/-- Slot 255 of the ring holds an entry of a KIND for a sector of local memory. -/
def ack (kind sector : Nat) : Mend := { md with sram := mwrite [] (faultRing + 32 * 255) (leBytes 32 (2 ^ 255 + kind * 2 ^ 244 + sector * 4096 * 2 ^ 64)) }
def stAk : State := { stEr (ack 4 15) with mem := { (stEr md).mem with secs := [(15, dirty true), (31, dirty false)] } }
theorem witness_ack : (let e := leNat ((ack 4 15).slotBytes faultRing 255)
    (ack 4 15).sram.wf = true ∧ bitAt e 255 = true ∧ bitsOf e 244 4 = 4 ∧ bitAt e 109 = false ∧ 15 = bitsOf e 64 45 / 4096 ∧ (stAk.mem.sec 15).lost = true) ∧
    (let t := at0 (exec (.lostSectorAck 0 255) stAk)
     t.mem.secs.map (·.1) = [31] ∧ (t.mends.map fun m => mget m.2.sram (faultRing + 32 * 255 + 31)) = [0xC0, 0x80]) := by decide +kernel
theorem witness_corrected : (∀ e ∈ [(65534, 0), (65535, 1)], (let s := { stEr md with mem := { (stEr md).mem with errs := [(15, e.1)] } }
    let t := at0 (exec (.correctedError 15) s)
    (sget 0 t.mem.errs 15, t.mends.map (·.2.frPos)) = (e.1 + 1, [0, e.2]))) := by decide +kernel
theorem witness_stack_fence : (let s := stEr md
    s.mgmt.stackOn 1 = true ∧ s.mgmt.stackOn 15 = true ∧ Session s ∧ (at0 (exec (.hbmFence 1) s)).mgmt.fenceBusy = some 1 ∧
    (at0 (exec (.stackFailure 15) s)).mgmt.fenceBusy = some 15 ∧
    (let u := { s with mgmt := { s.mgmt with fenceBusy := some 1 } }
     nextIs (exec (.hbmFence 0) u) u = true ∧ (at0 (exec (.stackFailure 0) u)).mgmt.fenceWait = [0] ∧ ksorted u.mem.secs = true ∧
     u.stackOf 0 = 1 ∧ u.stackOf (14 / 16) = 1 ∧ (u.mem.sec 14).dirty = false ∧ u.mem.pinned 0 = false ∧ u.mem.hostLines = [] ∧ u.mgmt.fenceWait = [] ∧
     (let t := at0 (exec .hbmFenceComplete u)
      (t.mgmt.fenceBusy, t.mgmt.fencedStacks, t.mem.secs.filter fun x => x.1 < 16, (kget t.mem.frames 0).map (·.stack)) = (none, 2, [(15, dirty false)], some (some 0)) ∧
        (at0 (exec (.hbmret 1 true) t)).mgmt.fencedStacks = 0 ∧ nextIs (exec (.hbmret 1 false) t) t = true))) := by unfold Session; decide +kernel
def stCl (f : Bool) (gs : KV Group) : State := { stSt 9 false with clus := [(63, { Cluster.reset with fenced := f })], groups := gs }
theorem witness_cluster_fence : (stCl false []).mgmt.clop = none ∧ (at0 (exec (.clctlFence 63) (stCl false []))).mgmt.clop = some { cluster := 63, emerg := false } ∧
    ((at0 (exec (.clctlReturn 63) (stCl true []))).cluster 63).fenced = false ∧ nextIs (exec (.clctlFence 63) (stCl true [])) (stCl true []) = true ∧
    (let u := fun gs => at0 (exec (.clctlFence 63) (stCl false gs))
     ((at0 (exec .clusterFenceComplete (u []))).cluster 63).fenced = true ∧ (u []).mgmt.clWait = [] ∧
     (let gs := [(gkey 1 0, { gi 0 with cores := [255] })]; nextIs (exec .clusterFenceComplete (u gs)) (u gs) = true)) := by decide +kernel

/-! ### Fences, elements, formats -/

theorem witness_fences : (∀ k ∈ [1, 2, 3], ∀ sc ∈ [0, 1, 2, 3, 4, 5],
      Runs (.fence sc k) (stC wp) 0 wp cl ∧ (stC wp).relWaits (.warp 0) sc.toNat ((stC wp).paired wp.gk) = false ∧ ((stC wp).hostOf (.warp 0)).unacc = false ∧
      (stC wp).returnWaits (.warp 0) = false ∧ (stC wp).hostMarked wp.gk = false ∧ MendRuns (.fence sc k) (stM md) 0 md cl ∧
      (stM md).relWaits (.mend 0) sc.toNat false = false ∧ (stM md).returnWaits (.mend 0) = false) ∧
    Runs (.wadr 8 1 m0 0 2 none) (stC wp) 0 wp cl ∧ Runs (.wadr 8 1 m0 0 2 (some 7)) (stC wp) 0 wp cl ∧ slotFull wp (some 7) = false ∧
    MendRuns (.wadr 8 1 m0 0 2 none) (stM mdq) 0 mdq cl ∧ MendRuns (.wadr 8 1 m0 0 2 (some 7)) (stM mdq) 0 mdq cl ∧
    mendSpace 0 (2 ^ 57 - 1) = .virt (2 ^ 57 - 1) ∧ (∀ va, mendSpace 0 (2 ^ 63) ≠ .virt va) := by
  unfold Runs Issues Free MendRuns MendIssues MendFree
  refine ⟨by decide +kernel, by decide +kernel, by decide +kernel, by decide +kernel, by decide +kernel, by decide +kernel, by decide +kernel, ?_⟩
  intro va
  have h : (match mendSpace 0 (2 ^ 63) with
      | .virt _ => true
      | _ => false) = false := by decide +kernel
  intro e
  rw [e] at h
  cases h
/-- The bytes 0x10007 to 0x1000E, at the end of a doubleword, are home. -/
def elAt (d : Nat) : Elem := Elem.virt 0 7 8 (BitVec.ofNat 64 d) 0 8
def stEl (k : Acc) : State := { stC wp with ops := [(4, { opLd with kind := .acc k, elems := [elAt 0x8000000000000009] })] }
theorem witness_elements : (∀ k ∈ [Acc.store, .load false 2 true, .atom 0 7 false true 0 0],
      let o : Op := { opLd with kind := .acc k, elems := [elAt 0x8000000000000009] }
      kget (stEl k).ops 4 = some o ∧ o.elems[0]? = some (elAt 0x8000000000000009) ∧ (stEl k).mem.bytes.wf = true ∧ (∀ g ∈ (stEl k).grids, g.2.linings = []) ∧
      (∀ j < 8, (stEl k).mem.valid (0x10007 + j) = true)) ∧
    ((let t := (stEl .store).applyElem 4 0 { opLd with kind := .acc .store, elems := [elAt 0x8000000000000009] } (elAt 0x8000000000000009) (.loc 0x10007 .loc)
      (t.mem.byte 0x10007, t.mem.byte 0x1000E, t.mem.byte 0x1000F)) = (9, 0x80, 0)) := by decide +kernel
theorem witness_goes_out : (let s := { stEl .store with ctl := { (stEl .store).ctl with nextOp := 5 } }
    let o : Op := { opLd with kind := .acc .store, elems := [elAt 0x8000000000000009] }
    kget s.ops 4 = some o ∧ (∀ g ∈ s.grids, g.2.folds = []) ∧ ksorted s.mem.secs = true ∧ (∀ x ∈ s.ops, x.1 < s.ctl.nextOp) ∧ protElems (s.openElems o) = [] ∧
    s.handlerStore o = false ∧ s.refusals o (s.openElems o) = []) := by
  decide +kernel
/-- A store in the buffer is of another issuer than the warp that fences. -/
theorem witness_fence_buffer : (let s := { stC wp with host := { hup true with buf := [hw (.host 0) 0] } }
    s.relWaits (.warp 0) 5 (s.paired wp.gk) = false ∧ (s.hostOf (.warp 0)).unacc = false ∧ (∀ b ∈ s.host.buf, b.who ≠ .warp 0)) := by decide +kernel
/-- 7 × 2^-1 is a tie between 3 and 4; the largest finite .f16 and an encoding of each other format is a finite value. -/
theorem witness_rounding : (7 % 2 ^ 1 ≠ 0 ∧ 2 * (7 % 2 ^ 1) = 2 ^ 1 ∧ (0 : Int) = -1 + (1 : Nat)) ∧
    ((List.range 7).all fun i => match fdecode (fmtOf (8 + i)) 1 with
      | .fin _ _ _ => true
      | _ => false) = true := by decide +kernel
theorem test_rn_tie : (roundAt .rn false 7 (-1) false 0).1 = 4 ∧ (roundAt .rm true 7 (-1) false 0).1 = 4 := by decide +kernel

/-! ### Encodings and steps -/

theorem witness_encodings : (Instr.vfma true 31 (.vec 31 true) (.vec 3 false) (.vec 127) 3 3).wf = true ∧
    encode (.vfma true 31 (.vec 31 true) (.vec 3 false) (.vec 127) 3 3) ≠ [] ∧ decodeInstr 0x40102024 0 = some (.vadd 4 (.vec 4 false) (.scl 2)) := by
  decide +kernel
theorem words_of_the_manual : Obligations.WordsOfTheManual := by unfold Obligations.WordsOfTheManual; decide +kernel
/-- Major opcode 0x18 (class 1), D of q 3 unsigned, s9, the constant -256, LE: 001 1000 000111 001001 1 011 100000000 (04 Table 4-8). -/
theorem test_scmp_word : decodeInstr 0b00110000001110010011011100000000 0 = some (.scmp 3 true 3 9 (.imm (-256))) := by decide +kernel
/-- A word of each class: 0, 4, 5, 6 and 7 with their first major opcodes of chapters 06, 07 and 09. -/
theorem test_class_words : decodeInstr (0x02 * 2 ^ 24) 0 = some (.brc 0 false 0) ∧ decodeInstr (0x8E * 2 ^ 24 + 1 * 2 ^ 19) 0 = some (.fence 0 2) ∧
    decodeInstr (0xAA * 2 ^ 24 + 255) 0 = some (.cwait 255) ∧ decodeInstr (0xC4 * 2 ^ 24) 0 = some (.tzero 0 0) := by decide +kernel

/-- Ill-formed terms, one for each check of WellFormed. -/
def illFormed : List Instr :=
  [.emask 3 1 1, .emask 0 1 1, .eclr false 1 0, .sadd 6 0 0 (.imm 0), .ssub 7 0 0 (.imm 0), .smul 4 0 0 (.imm 0), .smad false 1 0 0 0 0, .smad true 3 0 0 0 0,
   .slog 7 0 0 (.imm 0), .slog 6 0 0 (.imm 0), .sshf 5 0 0 (.imm 0), .scmp 6 false 0 0 (.imm 0), .sjmp 5 0 0 0, .sjmp 3 0 1 0, .sjmp 4 0 0 1, .sjmp 2 1 0 0,
   .sjmp 0 4 0 0, .scnt 3 0 0, .vadd 0 (.scl 0) (.scl 1), .vsub 0 (.scl 0) (.scl 1), .vmul 0 (.scl 0) (.scl 1), .vdiv 0 (.scl 0) (.scl 1), .vlog 0 (.scl 0) (.scl 1),
   .vshf 0 (.scl 0) (.scl 1), .vfadd 0 (.scl 0) (.scl 1), .vfmul 0 (.scl 0) (.scl 1), .vaddFx 0 v2 v2 8 false, .vsubFx 0 v2 v2 8 false, .vmulFx true 0 v2 v2 2 true,
   .vmulFx false 0 v2 v2 8 false, .vmad true 0 v2 v2 (.vec 0) 2 true, .vmad false 0 v2 v2 (.vec 0) 9 false, .vdivFx true 0 v2 v2 8, .vlogFx 7 0 v2 v2 2,
   .vlogFx 6 0 v2 v2 2, .vlogFx 0 0 v2 v2 8, .vshfFx 5 0 v2 v2 2, .vmin 0 v2 v2 8, .vmax 0 v2 v2 8, .vcmp 6 0 v2 v2 2, .vcmp 0 0 v2 v2 8, .vsel 0 false true 0 v2 v2 false,
   .vcnt false 0 v2 1, .vbfx 0 v2 3 0 1, .vbfi 0 v2 v2 3 0 1, .vshuf 0 0 v2 v2 0, .vvote 3 0 0 false, .vscan 6 0 0 false 2 false false, .vscan 1 0 0 false 2 true false,
   .vred 6 0 0 false 2 false, .vred 0 0 0 false 8 false, .vfaddFx false 0 v2 v2 4 0, .vfmulFx 0 v2 v2 2 4, .vfma false 0 v2 v2 (.vec 0) 4 0, .vfmin 0 v2 v2 4, .vfmax 0 v2 v2 4,
   .vfcmp 0 0 v2 v2 4, .vfcls 0 v2 7, .vfcvt 0 0 false 2 3 0 0 false, .vfcvt 0 0 false 10 2 5 0 false, .vfcvt 0 0 false 10 2 0 1 false, .vfcvtPack 0 0 false 14 0 0 false,
   .vfcvtUnpack 0 0 false 19 0 false, .vfcvtUnpack 0 0 false 15 4 false, .vrcpFx 0 v2 4 0, .vrsqFx 0 v2 4 0, .vexp2Fx 0 v2 3 0, .vlog2Fx 0 v2 3 0, .vsincos 0 1 v2 3 0,
   .vdot 0 v2 v2 (.vec 0) 2 0, .vscl 0 v2 v2 4 0, .ld 0 3 m0 0 2 0, .ld 0 0 { m0 with b := 1 } 0 2 0, .ld 0 0 { m0 with ra := true } 0 2 0, .ld 0 0 { m0 with a := 64 } 0 2 0,
   .ld 0 0 m0 0 12 0, .st 0 3 m0 0 2 none, .ldb 0 3 m0 0 2 0, .lds 0 3 false 0 m0 0 2 0, .sts 0 3 false 0 m0 0 2 none, .atom 3 0 m0 0 10 0 0 false false (some 0),
   .atom 0 0 m0 0 2 0 6 false false (some 0), .atom 0 1 m0 0 2 0 0 true false none, .atom 0 0 m0 0 2 0 0 false false none, .atom 0 0 m0 64 2 0 0 false true (some 0),
   .atoms 0 0 m0 0 11 false 0 false 0, .fence 6 1, .fence 0 0, .wadr 0 3 m0 0 2 none, .pref 3 m0 0 2, .cgatIdx 0 0 3, .cgatRow 0 0 0 0 3 0, .csct 0 0 0 0 0 1,
   .cred 3 0 0 0 2 0 0, .cred 0 0 0 0 0 0 0, .cseal false true 0 0, .tld 0 0 0 true 6 0 false false none, .tld 0 0 0 false 1 0 true false none,
   .tld 0 0 0 false 1 0 false true none, .tzero 0 3, .tcvt 0 0 2 0 0 false none, .tcvt 0 0 1 4 0 false none, .tmovVt 0 0 false 0 1 5 false false false false none,
   .tmovVt 0 0 false 0 1 0 false true true false none, .tmovTv 0 0 0 5 false 0, .mma 0 0 0 1 false true none, .mmas 0 0 0 1 false true none, .sread 64 1, .csrr 0 0x021]
theorem test_ill_formed : illFormed.all (fun i => !i.wf) = true := by decide +kernel

/-- LDS has no meaning on a mending core: ILLEGAL_OPERAND (07 R194). -/
theorem test_lds_on_mend : ((at0 (exec (.lds 2 0 false 0 m0 0 2 0) (stM md))).mends.map fun m => (m.2.halted, m.2.trapped, m.2.cause)) = [(true, true, 2)] := by decide +kernel
/-- SADD s2, s0, 7 as the first instruction after reset (04 Table 4-8): s2 is 7, and lane 0 stands at the next line. -/
theorem test_step : (match step (State.reset.withFetchWord 32 0b00100000000100000001000000000111) with
    | .next t => (kget t.warps 0).map fun (w : Warp) => (rget w.s 2, w.pcOf 0)
    | _ => none) = some (7, 128) := by decide +kernel
theorem fetch_ok (s : State) (w : Warp) (off a : Nat) (k : L1Kind) (g : (s.walkGate w.ctx [s.lined w.ctx (s.codeBase w + off) false]).2 = true)
    (h : (match s.check w.ctx 3 false (s.codeBase w + off) with
      | .ok q _ _ => decide (q = .loc a k)
      | _ => false) = true) (n : s.mem.forward a = none)
    (r : (s.gate s.opNo (.loc a k)).2 = true) : s.fetchLine w off = .ok (s.lineOf (.loc a k)) := by
  unfold State.fetchLine
  have e : s.walkGate w.ctx [s.lined w.ctx (s.codeBase w + off) false] = ((s.walkGate w.ctx [s.lined w.ctx (s.codeBase w + off) false]).1, true) := by
    rw [← g]
  have e2 : s.gate s.opNo (.loc a k) = ((s.gate s.opNo (.loc a k)).1, true) := by rw [← r]
  have c : s.codeAt w off (.loc a k) = .ok (s.lineOf (.loc a k)) := by
    simp only [State.codeAt, State.homePlace]; rw [n]; simp only; rw [e2]
  split at h
  · rename_i e3
    show (match s.walkGate w.ctx [s.lined w.ctx (s.codeBase w + off) false] with
      | (t, false) => Code.wait (t.stallWalk w.ctx [s.lined w.ctx (s.codeBase w + off) false])
      | (_, true) => match s.check w.ctx 3 false (s.codeBase w + off) with
        | .ok p _ _ => s.codeAt w off p
        | .prot => .prot
        | .event x => .event x) = _
    rw [e]
    simp only [decide_eq_true_eq] at h
    rw [e3, h]
    exact c
  · cases h
/-- A NOP after the placed one is next in its clause; the clause is next at the frontier; the same on a mending core. -/
def cN : ClausePos := { hdr := 0, next := 8, stop := 12, nexth := 12, cls := 7, act := 1, sw := false, here := 1 }
def sN (c : Option ClausePos) : State :=
  let s := State.reset.withFetchWord 32 0xE0000000
  { s with warps := [(0, { wp with clause := c })], groups := [(gkey 1 0, gp)],
           mem := { s.mem with bytes := mwrite s.mem.bytes 0x10008 (leBytes 4 0xE0000000) } }
theorem witness_next_of_warp : (∃ t, NextOfWarp (sN (some cN)) 0 { wp with clause := some cN } cN 0xE0000000 0 t) ∧ InClause cN 0xE0000000 ∧
    decodeInstr 0xE0000000 0 = some .nop ∧ mustEnd .nop = false := by
  refine ⟨⟨_, [], _, by decide +kernel, by decide +kernel, by decide +kernel, by decide +kernel, by decide +kernel,
    fetch_ok _ _ _ 0x10008 .loc (by decide +kernel) (by decide +kernel) (by decide +kernel) (by decide +kernel), ⟨by decide +kernel, by decide +kernel⟩, rfl⟩, by unfold InClause; decide +kernel, by decide +kernel, by decide +kernel⟩
theorem witness_clause_opens : (let v : Warp := { wp with clause := none }
    (sN none).issuable v = true ∧ v.frontier = some 0 ∧ 
    (let b := ((sN none).popIssue []).begin (.warp 0) { pc := 0, word := 0, ext := 0 }
     b.fetchLine v 0 = .ok (b.lineOf (.loc 0x10000 .loc)) ∧ headerOk (b.lineOf (.loc 0x10000 .loc)) (wordIx 0) = true) ∧ v.merged = [] ∧ v.sb = [] ∧ v.inClause = none ∧
    ({ v with clause := some { cN with next := 4 } } : Warp).inClause = none) := by
  refine ⟨by decide +kernel, by decide +kernel,
    ⟨fetch_ok _ _ _ _ _ (by decide +kernel) (by decide +kernel) (by decide +kernel) (by decide +kernel), by decide +kernel⟩, by decide +kernel, by decide +kernel⟩
/-- A line that begins with filler; lanes that met there go on as merged. -/
def sF : State := { sN none with mem := { (sN none).mem with bytes := mwrite (sN none).mem.bytes 0x10000 (leBytes 4 0) } }
theorem witness_filler : (let v : Warp := { wp with clause := none, merged := [0] }
    let s := { sF with warps := [(0, v)] }
    s.issuable v = true ∧ v.frontier = some 0 ∧ v.inClause = none ∧ v.sb = [] ∧
    (let b := (s.popIssue []).begin (.warp 0) { pc := 0, word := 0, ext := 0 }
     b.fetchLine v 0 = .ok (b.lineOf (.loc 0x10000 .loc)) ∧ b.lineOf (.loc 0x10000 .loc) (wordIx 0) = 0) ∧ 0 ∈ v.merged) := by
  refine ⟨by decide +kernel, by decide +kernel, by decide +kernel, by decide +kernel,
    ⟨fetch_ok _ _ _ _ _ (by decide +kernel) (by decide +kernel) (by decide +kernel) (by decide +kernel), by decide +kernel⟩, by decide +kernel⟩
/-- A state with the canonical form, of which a step is a next state. -/
theorem witness_canonical : Canonical State.reset ∧ Canonical (sN (some cN)) ∧ (∃ t, step State.reset = .next t) := by
  refine ⟨⟨?_, by decide +kernel, fun e h => by cases h⟩, ⟨?_, by decide +kernel, ?_⟩, ⟨_, rfl⟩⟩
  · exact ⟨by decide +kernel, by decide +kernel, by decide +kernel, by decide +kernel, by decide +kernel, by decide +kernel, by decide +kernel, by decide +kernel,
      by decide +kernel, by decide +kernel, by decide +kernel, by decide +kernel, by decide +kernel, by decide +kernel, by decide +kernel, (fun _ h => by cases h), by decide +kernel⟩
  · exact ⟨by decide +kernel, by decide +kernel, by decide +kernel, by decide +kernel, by decide +kernel, by decide +kernel, by decide +kernel, by decide +kernel,
      by decide +kernel, by decide +kernel, by decide +kernel, by decide +kernel, by decide +kernel, by decide +kernel, by decide +kernel, (fun _ h => by cases h), by decide +kernel⟩
  · intro e h k
    simp only [sN, List.mem_singleton] at h
    subst h
    exact Nat.zero_le _
def cM : ClausePos := { cN with next := 4, stop := 8, nexth := 8 }
def mdN : Mend := { mdC with clause := some cM }
theorem witness_next_of_mend : (∃ t, NextOfMend { stM mdN with ctl := { Ctl.reset with issue := [.mend 0] } } 0 mdN cM 0xE0000000 0 t) ∧
    (headerOk (mdC.line 0) (wordIx 0) = true ∧ hdrPred (mdC.line 0 (wordIx 0)) = 7 ∧ hdrNeg (mdC.line 0 (wordIx 0)) = false ∧ mdC.resume = none) := by
  refine ⟨⟨_, [], by decide +kernel, by decide +kernel, rfl, by decide +kernel, by decide +kernel, ⟨by decide +kernel, by decide +kernel⟩, rfl⟩, by decide +kernel⟩
theorem witness_steps : (∀ i ∈ State.reset.ctl.selfq ++ State.reset.ctl.agenda, encode i = []) ∧ encode (.queueEnable 0) = [] ∧
    ({ State.reset with ctl := { Ctl.reset with selfq := [.queueEnable 0], agenda := [.hostLinkUp], choices := [1] } } : State).choice % 2 = 1 := by decide +kernel
theorem witness_window : WindowInv (sN (some cN)) ∧ WindowInv State.reset := by unfold WindowInv; decide +kernel

end Sys2Proof.Tests
end

section
/-! Settles the number formats (chapter 05). An exact rounding answers its argument (roundAt_of_exact), so a value whose own
exponent is the quantum of its binade keeps it in every mode (fround_of_canonical); and a finite encoding decodes to such a
value, within the range of its format. -/

namespace Sys2Proof.Machine

open Host Sys2Proof.Cert

/-! ### Rounding to a quantum (05 R134) -/

/-- Whether a mode rounds a value between lo and lo + 1 up, when the value is r of 2^k parts above lo (05 R134, R135). -/
def roundsUp (mode : RMode) (neg : Bool) (lo r k : Nat) : Bool :=
  match mode with
  | .rn => 2 * r > 2 ^ k || (2 * r == 2 ^ k && lo % 2 == 1)
  | .rz => false
  | .rp => !neg
  | .rm => neg
  | .rs d => if neg then !(d < (2 ^ k - r) * 2 ^ 24 / 2 ^ k) else d < r * 2 ^ 24 / 2 ^ k

/-- A value whose exponent is not below the quantum is a multiple of it, and stays in every mode. -/
theorem roundAt_of_exact (mode : RMode) (neg : Bool) (m : Nat) {e q : Int} (h : q ≤ e) :
    roundAt mode neg m e false q = (m * 2 ^ (e - q).toNat, false) := by
  simp only [roundAt, if_pos h, bne_self_eq_false, Bool.or_false, Bool.false_and, Bool.false_eq_true, if_false]

/-- A value whose exponent is below the quantum goes to its lower neighbour or to the next one, and only a value that is no
multiple goes up. -/
theorem roundAt_of_lt (mode : RMode) (neg : Bool) (m : Nat) {k : Nat} (e : Int) (hk : 0 < k) :
    roundAt mode neg m e false (e + k) =
      (if m % 2 ^ k != 0 && roundsUp mode neg (m / 2 ^ k) (m % 2 ^ k) k then m / 2 ^ k + 1 else m / 2 ^ k,
        m % 2 ^ k != 0) := by
  have hq : ¬ e + (k : Int) ≤ e := by omega
  have hgt : e + (k : Int) > e := by omega
  have hwidth : (e + (k : Int) - e).toNat = k := by omega
  simp only [roundAt, if_neg hq, hwidth, Bool.or_false, decide_eq_true hgt, Bool.true_and, Bool.false_or]
  cases mode with
  | rn | rz | rp | rm | rs _ => rfl

/-- A multiple of the quantum stays in every mode. -/
theorem roundAt_of_multiple (mode : RMode) (neg : Bool) {m k : Nat} (e : Int) (h : m % 2 ^ k = 0) :
    roundAt mode neg m e false (e + k) = (m / 2 ^ k, false) := by
  rcases Nat.eq_zero_or_pos k with rfl | hk
  · rw [roundAt_of_exact mode neg m (by omega), show (e - (e + ((0 : Nat) : Int))).toNat = 0 by omega, Nat.pow_zero,
      Nat.mul_one, Nat.div_one]
  · simp only [roundAt_of_lt mode neg m e hk, h, bne_self_eq_false, Bool.false_and, Bool.false_eq_true, if_false]

/-- A value that is no multiple of the quantum goes to its lower neighbour or to the next one, as the mode says. -/
theorem roundAt_of_remainder (mode : RMode) (neg : Bool) {m k : Nat} (e : Int) (h : m % 2 ^ k ≠ 0) :
    roundAt mode neg m e false (e + k) =
      (if roundsUp mode neg (m / 2 ^ k) (m % 2 ^ k) k then m / 2 ^ k + 1 else m / 2 ^ k, true) := by
  have hk : 0 < k := Nat.pos_of_ne_zero fun h0 => h (by rw [h0, Nat.pow_zero, Nat.mod_one])
  simp only [roundAt_of_lt mode neg m e hk, bne_iff_ne.2 h, Bool.true_and]

/-- Rounding to the nearest goes up above the tie, and at the tie from an odd lower neighbour. -/
theorem roundsUp_rn_iff (neg : Bool) (lo r k : Nat) :
    roundsUp .rn neg lo r k = true ↔ 2 * r > 2 ^ k ∨ 2 * r = 2 ^ k ∧ lo % 2 = 1 := by
  simp only [roundsUp, Bool.or_eq_true, Bool.and_eq_true, decide_eq_true_eq, beq_iff_eq]

theorem roundingModesPickTheirNeighbour : RoundingModesPickTheirNeighbour := by
  rintro neg m e _ k rfl
  refine ⟨fun mode h => roundAt_of_multiple mode neg e h, fun mode h => ?_, fun h => ?_⟩
  · rw [roundAt_of_remainder mode neg e h]
    refine ⟨rfl, ?_⟩
    split
    · exact .inr rfl
    · exact .inl rfl
  · simp only [roundAt_of_remainder _ neg e h, roundsUp_rn_iff]
    refine ⟨rfl, by cases neg <;> rfl, rfl, fun hlow => if_neg (by omega), fun hhigh => if_pos (by omega), fun htie => ?_⟩
    split <;> omega

/-! ### Comparing magnitudes -/

/-- A magnitude brought to a lower exponent z is brought there by way of any exponent q between. -/
theorem mul_pow_toNat_split (m : Nat) {e z q : Int} (hz : z ≤ q) (hq : q ≤ e) :
    m * 2 ^ (e - z).toNat = m * 2 ^ (e - q).toNat * 2 ^ (q - z).toNat := by
  rw [show (e - z).toNat = (e - q).toNat + (q - z).toNat by omega, Nat.pow_add, Nat.mul_assoc]

/-- cmpMag compares the multiples of any exponent that is not above the two. -/
theorem cmpMag_eq_gt_iff (m₁ m₂ : Nat) {e₁ e₂ z : Int} (h₁ : z ≤ e₁) (h₂ : z ≤ e₂) :
    cmpMag m₁ e₁ m₂ e₂ = .gt ↔ m₂ * 2 ^ (e₂ - z).toNat < m₁ * 2 ^ (e₁ - z).toNat := by
  have hz : z ≤ min e₁ e₂ := by omega
  rw [mul_pow_toNat_split m₁ hz (by omega), mul_pow_toNat_split m₂ hz (by omega),
    Nat.mul_lt_mul_right (Nat.two_pow_pos _)]
  exact Nat.compare_eq_gt

/-- A finer exponent and a magnitude multiplied to make up for it are the same value. -/
theorem cmpMag_refine (m₁ m₂ : Nat) {e₁ q : Int} (e₂ : Int) (h : q ≤ e₁) :
    cmpMag (m₁ * 2 ^ (e₁ - q).toNat) q m₂ e₂ = .gt ↔ cmpMag m₁ e₁ m₂ e₂ = .gt := by
  have hz : min q e₂ ≤ q := by omega
  have hz₂ : min q e₂ ≤ e₂ := by omega
  rw [cmpMag_eq_gt_iff _ _ hz hz₂, cmpMag_eq_gt_iff _ _ (by omega : min q e₂ ≤ e₁) hz₂, mul_pow_toNat_split m₁ hz h]

/-- A magnitude is not above another whose exponent is at least j more and which is at least a 2^j-th of it. -/
theorem cmpMag_ne_gt_of_le {m₁ m₂ : Nat} {e₁ e₂ : Int} (j : Nat) (hm : m₁ ≤ m₂ * 2 ^ j) (he : e₁ + j ≤ e₂) :
    cmpMag m₁ e₁ m₂ e₂ ≠ .gt := by
  have hj : m₂ * 2 ^ j ≤ m₂ * 2 ^ (e₂ - e₁).toNat :=
    Nat.mul_le_mul_left _ (Nat.pow_le_pow_right (by decide) (by omega))
  rw [Ne, cmpMag_eq_gt_iff m₁ m₂ (Int.le_refl e₁) (by omega), show (e₁ - e₁).toNat = 0 by omega, Nat.pow_zero, Nat.mul_one]
  omega

/-! ### Rounding a value that a format represents (05 R134) -/

/-- The quantum of a format for m × 2^e: that of the binade of the value, or of the smallest normal when the value is below. -/
def Fmt.quantum (f : Fmt) (m : Nat) (e : Int) : Int :=
  (if (Nat.log2 m : Int) + e < 1 - (f.bias : Int) then 1 - (f.bias : Int) else Nat.log2 m + e) - f.mb

theorem Fmt.quantum_subnormal (f : Fmt) {m : Nat} (hm : m ≠ 0) (h : m < 2 ^ f.mb) :
    f.quantum m (1 - f.bias - f.mb) = 1 - f.bias - f.mb := by
  have hlog : Nat.log2 m < f.mb := (Nat.log2_lt hm).2 h
  rw [Fmt.quantum, if_pos (by omega)]

theorem Fmt.quantum_normal (f : Fmt) {E M : Nat} (hE : E ≠ 0) (hM : M < 2 ^ f.mb) :
    f.quantum (M + 2 ^ f.mb) (E - f.bias - f.mb) = E - f.bias - f.mb := by
  have hlog : Nat.log2 (M + 2 ^ f.mb) = f.mb :=
    (Nat.log2_eq_iff (by omega)).2 ⟨Nat.le_add_left _ _, by rw [Nat.pow_succ]; omega⟩
  rw [Fmt.quantum, hlog, if_neg (by omega)]
  omega

/-- The binade of a value is not above its quantum. -/
theorem Fmt.binade_le_quantum (f : Fmt) (m : Nat) (e : Int) : (Nat.log2 m : Int) + e - f.mb ≤ f.quantum m e := by
  unfold Fmt.quantum
  split <;> omega

/-- A value whose exponent is its quantum, and which is not above the largest finite value, is its own rounding in every
mode. -/
theorem fround_of_canonical (f : Fmt) (mode : RMode) (neg : Bool) {m : Nat} {e : Int} (hm : m ≠ 0)
    (hq : f.quantum m e = e) (hmax : cmpMag m e f.maxM f.maxE ≠ .gt) :
    fround f mode neg m e = (fencode f neg m e, 0) := by
  have hqu := hq ▸ f.binade_le_quantum m e
  have hbinade := mt (cmpMag_refine m f.maxM f.maxE hqu).1 hmax
  unfold Fmt.quantum at hq
  simp only [fround, beq_false_of_ne hm, Bool.false_and, Bool.false_eq_true, if_false, hq, roundAt_of_exact _ _ _ hqu,
    roundAt_of_exact _ _ _ (Int.le_refl e), ite_self, beq_eq_false_iff_ne.2 hbinade, beq_eq_false_iff_ne.2 hmax,
    Int.sub_self, Int.toNat_zero, Nat.pow_zero, Nat.mul_one]

/-- An exact zero is encoded as a signed zero in every mode. -/
theorem fround_zero (f : Fmt) (mode : RMode) (neg : Bool) (e : Int) : fround f mode neg 0 e = (fencode f neg 0 0, 0) := rfl

/-! ### Encodings and their fields (05 R127) -/

/-- The sign bit of an encoding, as a number. -/
def Fmt.signBit (f : Fmt) (neg : Bool) : Nat := if neg then 2 ^ (f.eb + f.mb) else 0

theorem fencode_subnormal (f : Fmt) (neg : Bool) {M : Nat} (q : Int) (hM : M < 2 ^ f.mb) :
    fencode f neg M q = f.signBit neg + M := by
  have hsmall : ¬ 2 ^ (f.mb + 1) ≤ M := by rw [Nat.pow_succ]; omega
  simp only [fencode, Fmt.signBit, ge_iff_le, if_neg hsmall, if_pos hM]

theorem fencode_normal (f : Fmt) (neg : Bool) {M : Nat} (E : Nat) (hM : M < 2 ^ f.mb) :
    fencode f neg (M + 2 ^ f.mb) (E - f.bias - f.mb) = f.signBit neg + (E * 2 ^ f.mb + M) := by
  have hsmall : ¬ 2 ^ (f.mb + 1) ≤ M + 2 ^ f.mb := by rw [Nat.pow_succ]; omega
  have hnormal : ¬ M + 2 ^ f.mb < 2 ^ f.mb := by omega
  have hE : ((E : Int) - f.bias - f.mb + f.mb + f.bias).toNat = E := by omega
  simp only [fencode, Fmt.signBit, ge_iff_le, if_neg hsmall, if_neg hnormal, hE, Nat.add_sub_cancel, Nat.add_assoc]

/-- An encoding is its sign, exponent and mantissa fields put together. -/
theorem Fmt.eq_fields (f : Fmt) {x : Nat} (hx : x < 2 ^ f.bits) :
    f.signBit (bitAt x (f.eb + f.mb)) + (bitsOf x f.mb f.eb * 2 ^ f.mb + bitsOf x 0 f.mb) = x := by
  have hlow : bitsOf x f.mb f.eb * 2 ^ f.mb + bitsOf x 0 f.mb = x % 2 ^ (f.eb + f.mb) := by
    rw [bitsOf, bitsOf, Nat.pow_zero, Nat.div_one, Nat.add_comm f.eb, Nat.pow_add, Nat.mod_mul, Nat.mul_comm, Nat.add_comm]
  have hsign : f.signBit (bitAt x (f.eb + f.mb)) = 2 ^ (f.eb + f.mb) * (x / 2 ^ (f.eb + f.mb)) := by
    have hlt : x / 2 ^ (f.eb + f.mb) < 2 := Nat.div_lt_of_lt_mul (by rwa [← Nat.pow_succ])
    rcases Nat.le_one_iff_eq_zero_or_eq_one.1 (Nat.le_of_lt_succ hlt) with h | h
    · rw [Fmt.signBit, bitAt, h, Nat.mul_zero, if_neg (by decide)]
    · rw [Fmt.signBit, bitAt, h, Nat.mul_one, if_pos (by decide)]
  rw [hlow, hsign, Nat.div_add_mod]

/-- The exponent and mantissa fields of a finite encoding: all ones in the exponent are kept for infinities and NaNs in a
format that has infinities, and with all ones in the mantissa for the NaN of one that has NaNs only (05 R127, Table 5-1). -/
structure Fmt.Finite (f : Fmt) (E M : Nat) : Prop where
  exponent_lt : E < 2 ^ f.eb
  mantissa_lt : M < 2 ^ f.mb
  not_special : f.ieee = true → E ≠ 2 ^ f.eb - 1
  not_nan : f.ieee = false → f.nan.isSome = true → E = 2 ^ f.eb - 1 → M ≠ 2 ^ f.mb - 1

/-- What a finite encoding decodes to: a subnormal or zero when its exponent field is 0, else a normal (05 R127). -/
theorem fdecode_eq_fin {f : Fmt} {x m : Nat} {neg : Bool} {e : Int} (h : fdecode f x = .fin neg m e) :
    neg = bitAt x (f.eb + f.mb) ∧ f.Finite (bitsOf x f.mb f.eb) (bitsOf x 0 f.mb) ∧
      (bitsOf x f.mb f.eb = 0 ∧ m = bitsOf x 0 f.mb ∧ e = 1 - f.bias - f.mb ∨
        bitsOf x f.mb f.eb ≠ 0 ∧ m = bitsOf x 0 f.mb + 2 ^ f.mb ∧ e = bitsOf x f.mb f.eb - f.bias - f.mb) := by
  have hE : bitsOf x f.mb f.eb < 2 ^ f.eb := Nat.mod_lt _ (Nat.two_pow_pos _)
  have hM : bitsOf x 0 f.mb < 2 ^ f.mb := Nat.mod_lt _ (Nat.two_pow_pos _)
  unfold fdecode at h
  simp only at h
  split at h
  · split at h <;> cases h
  · rename_i hspecial
    split at h
    · cases h
    · rename_i hnan
      have hfin : f.Finite (bitsOf x f.mb f.eb) (bitsOf x 0 f.mb) :=
        ⟨hE, hM, fun hi he => hspecial (by rw [hi, he, beq_self_eq_true, Bool.and_self]), fun hi hn he hm => hnan (by
          rw [hi, hn, he, hm, beq_self_eq_true, beq_self_eq_true]; rfl)⟩
      split at h
      · rename_i hzero
        cases h
        exact ⟨rfl, hfin, .inl ⟨beq_iff_eq.1 hzero, rfl, rfl⟩⟩
      · rename_i hzero
        cases h
        exact ⟨rfl, hfin, .inr ⟨fun h0 => hzero (beq_iff_eq.2 h0), rfl, rfl⟩⟩

/-! ### The range of each format (05 Table 5-1) -/

/-- No finite encoding of a format is above its largest finite value. -/
structure Fmt.InRange (f : Fmt) : Prop where
  subnormal_le : ∀ {M}, f.Finite 0 M → cmpMag M (1 - f.bias - f.mb) f.maxM f.maxE ≠ .gt
  normal_le : ∀ {E M}, f.Finite E M → cmpMag (M + 2 ^ f.mb) (E - f.bias - f.mb) f.maxM f.maxE ≠ .gt

/-- With infinities, the largest finite value has the exponent field before all ones and a mantissa of all ones. -/
theorem Fmt.ofIeee_inRange {eb : Nat} (mb nan : Nat) (heb : 2 ≤ eb) : (Fmt.ofIeee eb mb nan).InRange := by
  obtain ⟨n, rfl⟩ := Nat.exists_eq_add_of_le' heb
  have hpos : 0 < 2 ^ n := Nat.two_pow_pos n
  have hcast : (2 : Int) ^ n = (2 ^ n : Nat) := (Int.natCast_pow 2 n).symm
  constructor
  · rintro M ⟨-, hM, -, -⟩
    simp only [Fmt.ofIeee, Nat.pow_succ, Int.pow_succ, Nat.add_succ_sub_one] at hM ⊢
    exact cmpMag_ne_gt_of_le 0 (by omega) (by omega)
  · rintro E M ⟨hE, hM, hspecial, -⟩
    simp only [Fmt.ofIeee, forall_const, Nat.pow_succ, Int.pow_succ, Nat.add_succ_sub_one] at hE hM hspecial ⊢
    exact cmpMag_ne_gt_of_le 0 (by omega) (by omega)

/-- E4M3 has normals with all ones in the exponent, and one NaN in the place of the largest. -/
theorem e4m3_inRange : (fmtOf 12).InRange := by
  constructor
  · rintro M ⟨-, hM, -, -⟩
    simp only [fmtOf] at hM ⊢
    exact cmpMag_ne_gt_of_le 0 (by omega) (by omega)
  · rintro E M ⟨hE, hM, -, hnan⟩
    simp only [fmtOf, Option.isSome_some, forall_const] at hE hM hnan ⊢
    by_cases htop : E = 15
    · exact cmpMag_ne_gt_of_le 0 (by omega) (by omega)
    · exact cmpMag_ne_gt_of_le 1 (by omega) (by omega)

/-- E2M1 has finite values only. -/
theorem e2m1_inRange : (fmtOf 14).InRange := by
  constructor
  · rintro M ⟨-, hM, -, -⟩
    simp only [fmtOf] at hM ⊢
    exact cmpMag_ne_gt_of_le 0 (by omega) (by omega)
  · rintro E M ⟨hE, hM, -, -⟩
    simp only [fmtOf] at hE hM ⊢
    exact cmpMag_ne_gt_of_le 0 (by omega) (by omega)

theorem fmtOf_inRange (code : Nat) : (fmtOf code).InRange := by
  unfold fmtOf
  split
  · exact Fmt.ofIeee_inRange 10 _ (by decide)
  · exact Fmt.ofIeee_inRange 7 _ (by decide)
  · exact Fmt.ofIeee_inRange 23 _ (by decide)
  · exact Fmt.ofIeee_inRange 52 _ (by decide)
  · exact e4m3_inRange
  · exact Fmt.ofIeee_inRange 2 _ (by decide)
  · exact e2m1_inRange

/-- In a format that holds the range of its encodings, the value of a finite encoding rounds to that encoding. -/
theorem fround_fdecode {f : Fmt} (hf : f.InRange) (mode : RMode) {x m : Nat} {neg : Bool} {e : Int} (hx : x < 2 ^ f.bits)
    (h : fdecode f x = .fin neg m e) : fround f mode neg m e = (x, 0) := by
  obtain ⟨rfl, hfin, ⟨hE, rfl, rfl⟩ | ⟨hE, rfl, rfl⟩⟩ := fdecode_eq_fin h
  · have hfields := f.eq_fields hx
    rw [hE, Nat.zero_mul, Nat.zero_add] at hfields
    rw [hE] at hfin
    by_cases hM : bitsOf x 0 f.mb = 0
    · rw [hM, fround_zero, fencode_subnormal f _ 0 (Nat.two_pow_pos _), ← hM, hfields]
    · rw [fround_of_canonical f mode _ hM (f.quantum_subnormal hM hfin.mantissa_lt) (hf.subnormal_le hfin),
        fencode_subnormal f _ _ hfin.mantissa_lt, hfields]
  · have hpos : bitsOf x 0 f.mb + 2 ^ f.mb ≠ 0 := Nat.ne_of_gt (Nat.add_pos_right _ (Nat.two_pow_pos _))
    rw [fround_of_canonical f mode _ hpos (f.quantum_normal hE hfin.mantissa_lt) (hf.normal_le hfin),
      fencode_normal f _ _ hfin.mantissa_lt, f.eq_fields hx]

theorem exactValuesKeepTheirEncoding : ExactValuesKeepTheirEncoding :=
  fun code _ mode _ _ _ _ _ hx h => fround_fdecode (fmtOf_inRange code) mode hx h

/-- Settles O5: the neighbour of every rounding mode, and the encoding that every finite value keeps. -/
theorem formatsRoundAndKeepValues : Obligations.FormatsRoundAndKeepValues :=
  ⟨roundingModesPickTheirNeighbour, exactValuesKeepTheirEncoding⟩

end Sys2Proof.Machine
end

section
/-! Settles the act of an element at its home (08 R246). Where no lining is open, a store to local memory is a run of
single bytes poked in ascending order (placeWr_loc); where each of their sectors is valid, those bytes read back and every
other one keeps its value (byte_pokes_in, byte_pokes_out). The L1 that follows an access is no part of memory. -/

namespace Sys2Proof.Machine

open Host Sys2Proof.Laws

/-! ### The bytes of a number (00 R5) -/

theorem leBytes_eq_map (n x : Nat) : leBytes n x = (List.range n).map fun j => BitVec.ofNat 8 (x / 2 ^ (8 * j)) := by
  induction n generalizing x with
  | zero => rfl
  | succ n ih =>
    rw [leBytes, ih, List.range_succ_eq_map, List.map_cons, List.map_map]
    have hshift (j : Nat) : x / 256 / 2 ^ (8 * j) = x / 2 ^ (8 * (j + 1)) := by
      rw [Nat.div_div_eq_div_mul, Nat.mul_succ, Nat.pow_add, Nat.mul_comm (2 ^ (8 * j))]
    simp [hshift, Function.comp_def]

/-- A byte of a doubleword is its low 8 bits after a shift. -/
theorem ofNat_div_two_pow (d : DWord) (j : Nat) : BitVec.ofNat 8 (d.toNat / 2 ^ j) = BitVec.setWidth 8 (d >>> j) :=
  BitVec.eq_of_toNat_eq (by rw [BitVec.toNat_ofNat, BitVec.toNat_setWidth, BitVec.toNat_ushiftRight, Nat.shiftRight_eq_div_pow])

/-! ### Bytes stored one by one in valid sectors (03 R72) -/

/-- Bytes stored from an address in ascending order, each in the sector of its own address. -/
def MemSys.pokes (m : MemSys) (a : Nat) : List Byte → MemSys
  | [] => m
  | b :: r => (m.poke a [b]).pokes (a + 1) r

/-- A byte stored in a valid sector changes no sector's validity. -/
theorem MemSys.valid_poke {m : MemSys} {a : Nat} (h : m.valid a = true) (bs : List Byte) (x : Nat) :
    (m.poke a bs).valid x = m.valid x := by
  simp only [MemSys.valid, MemSys.sec, MemSys.poke, kgetD, kget_kset]
  split
  · rename_i hx
    rw [hx]
    exact h.symm
  · rfl

theorem MemSys.byte_poke_same {m : MemSys} {a : Nat} (hwf : m.bytes.wf = true) (h : m.valid a = true) (b : Byte) :
    (m.poke a [b]).byte a = b := by
  rw [MemSys.byte, MemSys.valid_poke h, if_pos h]
  exact mget_mset_same m.bytes a b hwf

theorem MemSys.byte_poke_ne {m : MemSys} {a x : Nat} (h : m.valid a = true) (b : Byte) (hx : x ≠ a) :
    (m.poke a [b]).byte x = m.byte x := by
  have hbytes : mget (m.poke a [b]).bytes x = mget m.bytes x := mget_mset_ne m.bytes b hx
  rw [MemSys.byte, MemSys.valid_poke h, hbytes]
  rfl

/-- A byte outside the stored ones reads as before. -/
theorem MemSys.byte_pokes_out (bs : List Byte) {m : MemSys} {a x : Nat} (hv : ∀ j < bs.length, m.valid (a + j) = true)
    (hx : ∀ j < bs.length, x ≠ a + j) : (m.pokes a bs).byte x = m.byte x := by
  induction bs generalizing m a with
  | nil => rfl
  | cons b r ih =>
    have hva : m.valid a = true := hv 0 (Nat.zero_lt_succ _)
    rw [MemSys.pokes, ih, MemSys.byte_poke_ne hva b (hx 0 (Nat.zero_lt_succ _))]
    · intro j hj
      rw [MemSys.valid_poke hva, Nat.add_right_comm]
      exact hv (j + 1) (Nat.succ_lt_succ hj)
    · intro j hj
      rw [Nat.add_right_comm]
      exact hx (j + 1) (Nat.succ_lt_succ hj)

/-- Every stored byte reads back. -/
theorem MemSys.byte_pokes_in (bs : List Byte) {m : MemSys} {a i : Nat} (hwf : m.bytes.wf = true)
    (hv : ∀ j < bs.length, m.valid (a + j) = true) (hi : i < bs.length) : (m.pokes a bs).byte (a + i) = bs[i] := by
  induction bs generalizing m a i with
  | nil => cases hi
  | cons b r ih =>
    have hva : m.valid a = true := hv 0 (Nat.zero_lt_succ _)
    have hvr : ∀ j < r.length, (m.poke a [b]).valid (a + 1 + j) = true := fun j hj => by
      rw [MemSys.valid_poke hva, Nat.add_right_comm]
      exact hv (j + 1) (Nat.succ_lt_succ hj)
    cases i with
    | zero =>
      rw [MemSys.pokes, MemSys.byte_pokes_out r hvr fun j _ => by omega]
      exact MemSys.byte_poke_same hwf hva b
    | succ i =>
      rw [MemSys.pokes, ← Nat.add_assoc, Nat.add_right_comm]
      exact ih (mset_wf m.bytes a b hwf) hvr (Nat.lt_of_succ_lt_succ hi)

/-- The number stored at an address in valid sectors: what each of its bytes reads as. -/
theorem MemSys.byte_pokes_leBytes {m : MemSys} {a n j : Nat} (x : Nat) (hwf : m.bytes.wf = true)
    (hv : ∀ j < n, m.valid (a + j) = true) (hj : j < n) :
    (m.pokes a (leBytes n x)).byte (a + j) = BitVec.ofNat 8 (x / 2 ^ (8 * j)) := by
  simp only [leBytes_eq_map]
  rw [MemSys.byte_pokes_in _ hwf (by simpa using hv) (by simpa using hj), List.getElem_map, List.getElem_range]

/-- A number stored at an address in valid sectors changes its own bytes alone. -/
theorem MemSys.byte_pokes_leBytes_out {m : MemSys} {a n y : Nat} (x : Nat) (hv : ∀ j < n, m.valid (a + j) = true)
    (hy : ∀ j < n, y ≠ a + j) : (m.pokes a (leBytes n x)).byte y = m.byte y := by
  rw [leBytes_eq_map]
  exact MemSys.byte_pokes_out _ (by simpa using hv) (by simpa using hy)

/-! ### Reads and stores at a local home -/

theorem placeAddrs_loc (a : Nat) (y : L1Kind) (n : Nat) : placeAddrs (.loc a y) n = List.range' a n :=
  List.range'_eq_map_range.symm

theorem placeRd_loc (s : State) (a : Nat) (y : L1Kind) (n : Nat) :
    s.placeRd (.loc a y) n = leNat ((List.range n).map fun j => s.mem.byte (a + j)) := by
  rw [State.placeRd, placeAddrs, List.map_map]
  rfl

/-- Without open linings no address is in a record whose stores are ignored (07 R222). -/
theorem inLining_eq_false {s : State} (h : ∀ g ∈ s.grids, g.2.linings = []) (carve : Bool) (a : Nat) :
    s.inLining carve a = false :=
  List.any_eq_false.2 fun g hg => by simp [h g hg]

theorem pokeAt_loc {s : State} (h : ∀ g ∈ s.grids, g.2.linings = []) (y : L1Kind) (p a : Nat) (b : Byte) :
    s.pokeAt (.loc p y) a b = { s with mem := s.mem.poke a [b] } := by
  rw [State.pokeAt, inLining_eq_false h, if_neg Bool.false_ne_true]

theorem foldl_pokeAt_loc (y : L1Kind) (p n : Nat) {s : State} (h : ∀ g ∈ s.grids, g.2.linings = []) (a x : Nat) :
    ((List.range' a n).zip (leBytes n x)).foldl (fun s e => s.pokeAt (.loc p y) e.1 e.2) s =
      { s with mem := s.mem.pokes a (leBytes n x) } := by
  induction n generalizing s a x with
  | zero => rfl
  | succ n ih =>
    rw [List.range'_succ, leBytes, List.zip_cons_cons, List.foldl_cons, pokeAt_loc h]
    exact ih (s := { s with mem := s.mem.poke a [BitVec.ofNat 8 x] }) h (a + 1) (x / 256)

theorem placeWr_loc {s : State} (h : ∀ g ∈ s.grids, g.2.linings = []) (a : Nat) (y : L1Kind) (n x : Nat) :
    s.placeWr (.loc a y) n x = { s with mem := s.mem.pokes a (leBytes n x) } := by
  rw [State.placeWr, placeAddrs_loc, foldl_pokeAt_loc y a n h]

/-! ### The L1 that follows an access (08 R247 to R250) -/

@[simp] theorem pokeL1_mem (s : State) (core : Option Nat) (p : Place) (n x : Nat) : (s.pokeL1 core p n x).mem = s.mem := by
  cases core <;> rfl

@[simp] theorem pokeL1_ops (s : State) (core : Option Nat) (p : Place) (n x : Nat) : (s.pokeL1 core p n x).ops = s.ops := by
  cases core <;> rfl

/-- A fill changes the caches of the cores alone. -/
theorem fillL1_eq (s : State) (o : Op) (e : Elem) (p : Place) : ∃ cores, s.fillL1 o e p = { s with cores := cores } := by
  unfold State.fillL1
  split
  · split
    · exact ⟨_, rfl⟩
    · exact ⟨_, rfl⟩
  · exact ⟨s.cores, rfl⟩

@[simp] theorem fillL1_mem (s : State) (o : Op) (e : Elem) (p : Place) : (s.fillL1 o e p).mem = s.mem := by
  obtain ⟨_, h⟩ := fillL1_eq s o e p
  rw [h]

@[simp] theorem fillL1_ops (s : State) (o : Op) (e : Elem) (p : Place) : (s.fillL1 o e p).ops = s.ops := by
  obtain ⟨_, h⟩ := fillL1_eq s o e p
  rw [h]

theorem storeAt_mem {s : State} (h : ∀ g ∈ s.grids, g.2.linings = []) (core : Option Nat) (a : Nat) (y : L1Kind) (n x : Nat) :
    (s.storeAt core (.loc a y) n x).mem = s.mem.pokes a (leBytes n x) := by
  rw [State.storeAt, State.inRecord, inLining_eq_false h, if_neg Bool.false_ne_true, pokeL1_mem, placeWr_loc h]

theorem storeAt_ops {s : State} (h : ∀ g ∈ s.grids, g.2.linings = []) (core : Option Nat) (a : Nat) (y : L1Kind) (n x : Nat) :
    (s.storeAt core (.loc a y) n x).ops = s.ops := by
  rw [State.storeAt, State.inRecord, inLining_eq_false h, if_neg Bool.false_ne_true, pokeL1_ops, placeWr_loc h]

/-! ### The element in its operation -/

@[simp] theorem getElem?_setAt_same {α : Type} (l : List α) (i : Nat) (y : α) : (setAt l i y)[i]? = l[i]?.map fun _ => y := by
  induction l generalizing i with
  | nil => rfl
  | cons x r ih =>
    cases i with
    | zero => rfl
    | succ i => exact ih i

@[simp] theorem setElem_mem (s : State) (k i : Nat) (e : Elem) : (s.setElem k i e).mem = s.mem := rfl

/-- Element i of operation k, where there is one. -/
def State.elemAt (s : State) (k i : Nat) : Option Elem := (kget s.ops k).bind fun o => o.elems[i]?

/-- An element that an operation has is set. -/
theorem elemAt_setElem {s t : State} {k i : Nat} {o : Op} {e : Elem} (hops : t.ops = s.ops) (ho : kget s.ops k = some o)
    (he : o.elems[i]? = some e) (e' : Elem) : (t.setElem k i e').elemAt k i = some e' := by
  simp [State.elemAt, State.setElem, hops, ho, he]

/-! ### An element at its instant (08 R246) -/

section
variable {s : State} {o : Op} {e : Elem} {a : Nat} (k i : Nat) (y : L1Kind) (hno : ∀ g ∈ s.grids, g.2.linings = [])

section
include hno

/-- What an element can do to memory: nothing, or a number stored in its own bytes. -/
theorem applyElem_mem_cases : (s.applyElem k i o e (.loc a y)).mem = s.mem ∨
    ∃ x, (s.applyElem k i o e (.loc a y)).mem = s.mem.pokes a (leBytes e.n x) := by
  unfold State.applyElem
  split
  case h_1 | h_2 | h_4 => exact .inr ⟨_, by rw [setElem_mem, storeAt_mem hno]⟩
  case h_3 => exact .inl (by dsimp only; split <;> simp)
  case h_5 => exact .inl rfl

/-- An element, whatever its kind, keeps every byte that is not its own. -/
theorem applyElem_byte_out (hv : ∀ j < e.n, s.mem.valid (a + j) = true) {x : Nat} (hx : ∀ j < e.n, x ≠ a + j) :
    (s.applyElem k i o e (.loc a y)).mem.byte x = s.mem.byte x := by
  rcases applyElem_mem_cases k i y hno with h | ⟨v, h⟩
  · rw [h]
  · rw [h, MemSys.byte_pokes_leBytes_out v hv hx]

theorem applyElem_store_mem (hk : o.kind = .acc .store) :
    (s.applyElem k i o e (.loc a y)).mem = s.mem.pokes a (leBytes e.n e.data.toNat) := by
  simp only [State.applyElem, hk, setElem_mem, storeAt_mem hno]

theorem applyElem_atom_mem {fn ty q sc : Nat} {nr v : Bool} (hk : o.kind = .acc (.atom fn ty nr v q sc)) :
    (s.applyElem k i o e (.loc a y)).mem =
      s.mem.pokes a (leBytes e.n (atomNew fn ty (s.placeRd (.loc a y) e.n) e.data.toNat e.swap.toNat)) := by
  simp only [State.applyElem, hk, setElem_mem, storeAt_mem hno]

/-- The element of an atomic takes the old value. -/
theorem applyElem_atom_elemAt {fn ty q sc : Nat} {nr v : Bool} (hk : o.kind = .acc (.atom fn ty nr v q sc))
    (ho : kget s.ops k = some o) (he : o.elems[i]? = some e) :
    (s.applyElem k i o e (.loc a y)).elemAt k i =
      some { e with got := some (BitVec.ofNat 64 (s.placeRd (.loc a y) e.n)), done := true } := by
  simp only [State.applyElem, hk]
  exact elemAt_setElem (storeAt_ops hno ..) ho he _

end

theorem applyElem_load_mem {l1 v : Bool} {ty : Nat} (hk : o.kind = .acc (.load l1 ty v)) :
    (s.applyElem k i o e (.loc a y)).mem = s.mem := by
  simp only [State.applyElem, hk, setElem_mem]
  split
  · exact fillL1_mem ..
  · rfl

/-- The element of a load takes the value. -/
theorem applyElem_load_elemAt {l1 v : Bool} {ty : Nat} (hk : o.kind = .acc (.load l1 ty v))
    (ho : kget s.ops k = some o) (he : o.elems[i]? = some e) :
    (s.applyElem k i o e (.loc a y)).elemAt k i =
      some { e with got := some (BitVec.ofNat 64 (s.placeRd (.loc a y) e.n)), done := true } := by
  simp only [State.applyElem, hk]
  refine elemAt_setElem ?_ ho he _
  split
  · exact fillL1_ops ..
  · rfl

end

/-- Settles O19: a store and an atomic poke the bytes of one number, a load pokes none. -/
theorem elementsActAtTheirHome : Obligations.ElementsActAtTheirHome := by
  intro s k i o e a y ho he hwf hno hv
  refine ⟨fun x hx => applyElem_byte_out k i y hno hv hx, fun hk j hj _ => ?storeByte,
    fun l1 ty v hk => ⟨applyElem_load_mem k i y hk, ?loadGot⟩, fun fn ty nr v q sc hk => ⟨fun j hj _ => ?atomByte, ?atomGot⟩⟩
  case storeByte =>
    rw [applyElem_store_mem k i y hno hk, MemSys.byte_pokes_leBytes _ hwf hv hj, ofNat_div_two_pow]
  case loadGot =>
    rw [← placeRd_loc s a y]
    exact congrArg (Option.bind · Elem.got) (applyElem_load_elemAt k i y hk ho he)
  case atomByte =>
    rw [applyElem_atom_mem k i y hno hk, MemSys.byte_pokes_leBytes _ hwf hv hj, placeRd_loc]
  case atomGot =>
    rw [← placeRd_loc s a y]
    exact congrArg (Option.bind · Elem.got) (applyElem_atom_elemAt k i y hno hk ho he)

end Sys2Proof.Machine
end
